-- ==== Sys2Proof/Word.lean ====
section
/-! DEFINITION. The bit-vector types of the block: command words, 16-bit operands, control bytes, unit numbers
(spec/00_scope.md R19, spec/30_encoding.md R101). -/

namespace Sys2Proof

/-- One 32-bit command word of the command port (R31, R100). -/
abbrev Word := BitVec 32

/-- A u16: `imm16`, a bound, a width, a TOP or a compare value (R105). -/
abbrev Half := BitVec 16

/-- A u8: a control register or STATUS. -/
abbrev Byte := BitVec 8

/-- The 4-bit `unit` field: a timer index `t` or a generator slot `g` (R101, R106). -/
abbrev UnitNo := Fin 16

end Sys2Proof
end

