-- ==== Sys2Proof/Config.lean ====
section
/-! DEFINITION. What an implementation fixes: the parameters of spec/00_scope.md R7–R18 as plain data (one
`Platform`), the source constants of R15, and the one free value of the model. The default bindings the spec
decides for these parameters are values of these types and stand in Machine/Platform.lean. -/

namespace Sys2Proof

/-! ## Source constants (R15) -/

/-- `DEFAULT_MIN_US`. -/
def Config.defaultMinUs : Half := 1000
/-- `DEFAULT_MAX_US`. -/
def Config.defaultMaxUs : Half := 2000
/-- `REFRESH_HZ`. -/
def Config.refreshHz : Nat := 50
/-- `PERIOD_US`. -/
def Config.periodUs : Nat := 20000
/-- `TICK_FLOOR`. -/
def Config.tickFloor : Nat := 20000
/-- `BASE_DIV`. -/
def Config.baseDiv : Nat := 8
/-- `ESCALATED_DIV`. -/
def Config.escalatedDiv : Nat := 64
/-- `ANGLE_SPAN`. -/
def Config.angleSpan : Nat := 180
/-- `PERCENT_SPAN`. -/
def Config.percentSpan : Nat := 100
/-- `ANGLE_LIMIT`. -/
def Config.angleLimit : Nat := 90
/-- `PERCENT_LIMIT`. -/
def Config.percentLimit : Nat := 100
/-- `COUNTER16_MAX`. -/
def Config.counter16Max : Nat := 0xFFFF
/-- `TOP8`, the TOP an 8-bit timer has in fast-PWM mode whatever TOP it is given (R150). -/
def Config.top8 : Nat := 0xFF

/-! ## The names a platform uses -/

/-- A compare channel (R9). -/
inductive Channel where
  | A | B | C
deriving DecidableEq, Repr

/-- `NCH[t]`: two or three compare channels (R9). -/
inductive ChannelCount where
  | two | three
deriving DecidableEq, Repr

/-- The peripheral registers the block writes (R12, R33). -/
inductive RegName where
  | ctrlA | ctrlB | ctrlC | cnt | icr | ocrA | ocrB | ocrC
deriving DecidableEq, Repr

/-- The prescaler enumeration `PS` (R41); the codes 5, 6 and 7 are no prescalers. -/
inductive Prescaler where
  | none | div8 | div64 | div256 | div1024
deriving DecidableEq, Repr

/-- `CS_TABLE[t]`: the 3-bit clock-select code of each prescaler (R11). -/
structure CsTable where
  none : BitVec 3
  div8 : BitVec 3
  div64 : BitVec 3
  div256 : BitVec 3
  div1024 : BitVec 3
deriving DecidableEq, Repr

/-- `REGADDR[t]`: the platform address of each register of one timer (R12). -/
structure RegAddrs where
  ctrlA : Nat
  ctrlB : Nat
  ctrlC : Nat
  cnt : Nat
  icr : Nat
  ocrA : Nat
  ocrB : Nat
  ocrC : Nat
deriving DecidableEq, Repr

/-- The parameters of one timer: `IS16`, `NCH`, `FCLK`, `CS_TABLE`, `REGADDR` (R8–R12). -/
structure TimerCfg where
  is16 : Bool
  nch : ChannelCount
  fclk : Nat
  csTable : CsTable
  regAddr : RegAddrs
deriving DecidableEq, Repr

/-! ## LAYOUT (R16) -/

/-- What one bit of a control register carries: a bit of a field the block owns, or 0 (R130, R134). -/
inductive CtlBit where
  | zero
  | wgm (bit : Fin 4)
  | cs (bit : Fin 3)
  | com (ch : Channel) (bit : Fin 2)
deriving DecidableEq, Repr

/-- A row of the placement tables R132 and R133: the content of bits 7 down to 0 of a control register. -/
structure CtlByte where
  b7 : CtlBit
  b6 : CtlBit
  b5 : CtlBit
  b4 : CtlBit
  b3 : CtlBit
  b2 : CtlBit
  b1 : CtlBit
  b0 : CtlBit
deriving DecidableEq, Repr

/-- `LAYOUT`: the field values of R131 that an architecture fixes (`WGM_NORMAL` is 0 for every layout) and the
placements of R132 and R133. `WGM_FAST8` has the 3 bits of an 8-bit timer (R43). -/
structure Layout where
  wgmFast16 : BitVec 4
  wgmFast8 : BitVec 3
  comOff : BitVec 2
  comClear : BitVec 2
  comSet : BitVec 2
  ctrlA16 : CtlByte
  ctrlB16 : CtlByte
  ctrlC16 : CtlByte
  ctrlA8 : CtlByte
  ctrlB8 : CtlByte
deriving DecidableEq, Repr

/-! ## The platform -/

/-- `REG16_ORDER` (R17). -/
inductive Reg16Order where
  | highThenLow | lowThenHigh
deriving DecidableEq, Repr

/-- `OVERRANGE_POLICY` (R18). -/
inductive OverrangePolicy where
  | saturate | any
deriving DecidableEq, Repr

/-- Every parameter of R7–R18. `timers` has a row for each of the 16 unit numbers a command can name, of which the
first `numTimers` exist (R7); `pinMap` is the finite partial function `PIN_MAP` (R13). -/
structure Platform where
  numTimers : Nat
  timers : Vector TimerCfg 16
  numGenerators : Nat
  pinMap : List (Half × (UnitNo × Channel))
  layout : Layout
  reg16Order : Reg16Order
  overrange : OverrangePolicy
deriving DecidableEq, Repr

/-! ## The free value -/

/-- The unconstrained u16 draws of the spec (a NaN operand, R208 and R216; an over-range tick count under `ANY`,
R199): draw number `k` is `Config.freeHalf k`, about which nothing can be proved. State counts the draws
(notes/assumptions/10.md). -/
opaque Config.freeHalf : Nat → Half

end Sys2Proof
end

