-- ==== Sys2Proof/Syntax.lean ====
section
/-! DEFINITION. The command set: one constructor for each row of spec/opcode_table.json (spec/30_encoding.md R114),
with the operands R105–R112 give it. Every field has the width of its place in the encoding. -/

namespace Sys2Proof

/-- A command (R25, R114). -/
inductive Instr where
  /-- `TSETPS t, p` (R107, R141): stage a prescaler; `p` is the 3-bit code, of which 5, 6 and 7 name none. -/
  | tsetps (t : UnitNo) (p : BitVec 3)
  /-- `TMODEN t` (R109, R145): normal mode. -/
  | tmoden (t : UnitNo)
  /-- `TMODEF t, top` (R109, R149): fast-PWM mode. -/
  | tmodef (t : UnitNo) (top : Half)
  /-- `TSETCMP t, mask, value[, INV]` (R108, R155): compare write; mask bit 0 is A, 1 is B, 2 is C. -/
  | tsetcmp (t : UnitNo) (mask : BitVec 3) (inv : Bool) (value : Half)
  /-- `TQUERY t` (R109, R170): read back mode, prescalers and TOP. -/
  | tquery (t : UnitNo)
  /-- `SINIT g, pin, min, max, init` (R110, R180): construct a generator. -/
  | sinit (g : UnitNo) (pin minUs maxUs initUs : Half)
  /-- `SSETPW g, us` (R111, R196): set the pulse width. -/
  | ssetpw (g : UnitNo) (pw : Half)
  /-- `SSETANG g, x` (R112, R204): set the angle; `x` is a binary32 pattern. -/
  | ssetang (g : UnitNo) (x : Word)
  /-- `SSETPOS g, x` (R112, R212): set the percentage; `x` is a binary32 pattern. -/
  | ssetpos (g : UnitNo) (x : Word)
  /-- `SQUERY g` (R111, R224): read back the commanded width. -/
  | squery (g : UnitNo)
deriving DecidableEq, Repr

end Sys2Proof
end

