-- ==== Sys2Proof/WellFormed.lean ====
section
/-! DEFINITION. Which commands are well formed: `Instr.wellFormed` is the assembler's check (spec/30_encoding.md
R119), `Instr.fits` adds what a platform can carry out (R106, R107, spec/60_exceptions.md R232). The widths of the
fields are in the type; a term that fails a check still decodes and runs, and raises the command error. -/

namespace Sys2Proof

/-- The assembler's check (R119): a TSETPS names one of NONE, DIV8, DIV64, DIV256, DIV1024 (codes 0 to 4). -/
def Instr.wellFormed : Instr → Bool
  | .tsetps _ p => p.toNat < 5
  | .tmoden _ => true
  | .tmodef _ _ => true
  | .tsetcmp _ _ _ _ => true
  | .tquery _ => true
  | .sinit _ _ _ _ _ => true
  | .ssetpw _ _ => true
  | .ssetang _ _ => true
  | .ssetpos _ _ => true
  | .squery _ => true

/-- The unit of a command exists on platform `P` (R106). -/
def Instr.unitFits (P : Platform) : Instr → Bool
  | .tsetps t _ => t.val < P.numTimers
  | .tmoden t => t.val < P.numTimers
  | .tmodef t _ => t.val < P.numTimers
  | .tsetcmp t _ _ _ => t.val < P.numTimers
  | .tquery t => t.val < P.numTimers
  | .sinit g _ _ _ _ => g.val < P.numGenerators
  | .ssetpw g _ => g.val < P.numGenerators
  | .ssetang g _ => g.val < P.numGenerators
  | .ssetpos g _ => g.val < P.numGenerators
  | .squery g => g.val < P.numGenerators

/-- The pin of a SINIT is in `PIN_MAP` (R13, R183). -/
def Instr.pinFits (P : Platform) : Instr → Bool
  | .sinit _ pin _ _ _ => (P.pinMap.lookup pin).isSome
  | .tsetps _ _ => true
  | .tmoden _ => true
  | .tmodef _ _ => true
  | .tsetcmp _ _ _ _ => true
  | .tquery _ => true
  | .ssetpw _ _ => true
  | .ssetang _ _ => true
  | .ssetpos _ _ => true
  | .squery _ => true

/-- Everything about a command that platform `P` alone decides. -/
def Instr.fits (P : Platform) (i : Instr) : Bool := i.wellFormed && i.unitFits P && i.pinFits P

end Sys2Proof
end

