-- ==== Sys2Proof/Decode.lean ====
section
/-! DEFINITION. Decoding of command words and their encoder, from the tables of spec/30_encoding.md (R100–R117). -/

namespace Sys2Proof

/-! ## Fields of a header word (R101) -/

/-- `op = word[31:24]`. -/
def opField (h : Word) : Byte := h.extractLsb' 24 8
/-- `unit = word[23:20]`. -/
def unitField (h : Word) : UnitNo := (h.extractLsb' 20 4).toFin
/-- `aux = word[19:16]`. -/
def auxField (h : Word) : BitVec 4 := h.extractLsb' 16 4
/-- `imm16 = word[15:0]`. -/
def immField (h : Word) : Half := h.extractLsb' 0 16
/-- `max_us = WB[31:16]` (R102). -/
def highHalf (w : Word) : Half := w.extractLsb' 16 16
/-- `min_us = WB[15:0]` and `init_us = WI[15:0]` (R102). -/
def lowHalf (w : Word) : Half := w.extractLsb' 0 16

/-! ## The opcode map (R114) -/

/-- The defined opcodes. -/
inductive Opcode where
  | tsetps | tmoden | tmodef | tsetcmp | tquery | sinit | ssetpw | ssetang | ssetpos | squery
deriving DecidableEq, Repr

/-- The opcode byte of a defined command. -/
def opcodeByte : Opcode → Byte
  | .tsetps => 0x10
  | .tmoden => 0x11
  | .tmodef => 0x12
  | .tsetcmp => 0x13
  | .tquery => 0x14
  | .sinit => 0x20
  | .ssetpw => 0x21
  | .ssetang => 0x22
  | .ssetpos => 0x23
  | .squery => 0x24

/-- The command an opcode byte names; every other byte is illegal (R115). -/
def opcodeOf (b : Byte) : Option Opcode :=
  if b = 0x10 then some .tsetps
  else if b = 0x11 then some .tmoden
  else if b = 0x12 then some .tmodef
  else if b = 0x13 then some .tsetcmp
  else if b = 0x14 then some .tquery
  else if b = 0x20 then some .sinit
  else if b = 0x21 then some .ssetpw
  else if b = 0x22 then some .ssetang
  else if b = 0x23 then some .ssetpos
  else if b = 0x24 then some .squery
  else none

/-- `len(op)` in words (R104). -/
def opLen (b : Byte) : Nat :=
  if b = 0x20 then 3 else if b = 0x22 ∨ b = 0x23 then 2 else 1

/-- The reserved bits of each header (R113). -/
def reservedHeader : Opcode → Word
  | .tsetps => 0x000FFFF8
  | .tmoden => 0x000FFFFF
  | .tmodef => 0x000F0000
  | .tsetcmp => 0x00000000
  | .tquery => 0x000FFFFF
  | .sinit => 0x000F0000
  | .ssetpw => 0x000F0000
  | .ssetang => 0x000FFFFF
  | .ssetpos => 0x000FFFFF
  | .squery => 0x000FFFFF

/-- The reserved bits of each third word: `WI[31:16]` of a SINIT (R113). -/
def reservedThird : Opcode → Word
  | .sinit => 0xFFFF0000
  | .tsetps => 0
  | .tmoden => 0
  | .tmodef => 0
  | .tsetcmp => 0
  | .tquery => 0
  | .ssetpw => 0
  | .ssetang => 0
  | .ssetpos => 0
  | .squery => 0

/-! ## The decoder -/

/-- Why words are no command: the two decode errors of R232, or words still missing (R37). -/
inductive DecodeError where
  | illegalOpcode
  | reserved
  | incomplete
deriving DecidableEq, Repr

/-- What the decoder makes of a list of words: a command and the words after it, or the reason there is none. -/
inductive Decoded where
  | error (e : DecodeError)
  | ok (command : Instr × List Word)
deriving DecidableEq, Repr

/-- The command a legal header with its operand words stands for (R107–R112). -/
def instrOf (op : Opcode) (h second third : Word) : Instr :=
  match op with
  | .tsetps => .tsetps (unitField h) (h.extractLsb' 0 3)
  | .tmoden => .tmoden (unitField h)
  | .tmodef => .tmodef (unitField h) (immField h)
  | .tsetcmp => .tsetcmp (unitField h) (h.extractLsb' 16 3) (h.getLsbD 19) (immField h)
  | .tquery => .tquery (unitField h)
  | .sinit => .sinit (unitField h) (immField h) (lowHalf second) (highHalf second) (lowHalf third)
  | .ssetpw => .ssetpw (unitField h) (immField h)
  | .ssetang => .ssetang (unitField h) second
  | .ssetpos => .ssetpos (unitField h) second
  | .squery => .squery (unitField h)

/-- Some reserved field of the command is non-zero (R113). -/
def reservedSet (op : Opcode) (h third : Word) : Bool :=
  h &&& reservedHeader op != 0 || third &&& reservedThird op != 0

/-- Reads one command from the front of a list of words and returns the words after it (R104, R113, R115, R117). -/
def decode : List Word → Decoded
  | [] => .error .incomplete
  | h :: rest =>
    match opcodeOf (opField h) with
    | none => .error .illegalOpcode
    | some op =>
      if rest.length + 1 < opLen (opField h) then .error .incomplete
      else if reservedSet op h (rest.getD 1 0) then .error .reserved
      else .ok (instrOf op h (rest.getD 0 0) (rest.getD 1 0), rest.drop (opLen (opField h) - 1))

/-! ## The encoder -/

/-- A header word `{op, unit, aux, imm16}` (R101). -/
def headerWord (op : Opcode) (unit : UnitNo) (aux : BitVec 4) (imm : Half) : Word :=
  opcodeByte op ++ (BitVec.ofFin unit : BitVec 4) ++ aux ++ imm

/-- The words of a command (R103, R107–R112). -/
def encode : Instr → List Word
  | .tsetps t p => [headerWord .tsetps t 0 (p.setWidth 16)]
  | .tmoden t => [headerWord .tmoden t 0 0]
  | .tmodef t top => [headerWord .tmodef t 0 top]
  | .tsetcmp t mask inv value => [headerWord .tsetcmp t (BitVec.ofBool inv ++ mask) value]
  | .tquery t => [headerWord .tquery t 0 0]
  | .sinit g pin minUs maxUs initUs =>
    [headerWord .sinit g 0 pin, maxUs ++ minUs, (0 : Half) ++ initUs]
  | .ssetpw g pw => [headerWord .ssetpw g 0 pw]
  | .ssetang g x => [headerWord .ssetang g 0 0, x]
  | .ssetpos g x => [headerWord .ssetpos g 0 0, x]
  | .squery g => [headerWord .squery g 0 0]

/-! ## The opcode table's numbering of bits -/

/-- The words of the command whose bits are `w`, bit 0 the least significant bit of the first word; every bit from
`nbits` up is 0. The first word says how many words there are (R104). -/
def tableWords (nbits w : Nat) : List Word :=
  (List.range (opLen (opField (BitVec.ofNat 32 (w % 2 ^ nbits))))).map
    fun k => BitVec.ofNat 32 (w % 2 ^ nbits / 2 ^ (32 * k))

/-- What the decoder reads from that command. -/
def decodeTableWord (nbits w : Nat) : Option Instr :=
  match decode (tableWords nbits w) with
  | .ok (i, _) => some i
  | .error _ => none

end Sys2Proof
end

