-- ==== Sys2Proof/Machine/Platform.lean ====
section
/-! DEFINITION. The default bindings the spec decides for the parameters (spec/00_scope.md R11, R16–R18,
spec/40_timer.md R131–R133) and its fixture platform P0 (spec/95_test_vectors.md section 0), which `State.reset`
stands on (notes/assumptions/2.md). -/

namespace Sys2Proof

/-- The default `CS_TABLE` (R11). -/
def csTableDefault : CsTable :=
  { none := 0b001, div8 := 0b010, div64 := 0b011, div256 := 0b100, div1024 := 0b101 }

/-- CTRL_A of a 16-bit timer (R132). -/
def ctrlA16Default : CtlByte :=
  { b7 := .com .A 1, b6 := .com .A 0, b5 := .com .B 1, b4 := .com .B 0,
    b3 := .com .C 1, b2 := .com .C 0, b1 := .wgm 1, b0 := .wgm 0 }

/-- CTRL_B of a 16-bit timer (R132). -/
def ctrlB16Default : CtlByte :=
  { b7 := .zero, b6 := .zero, b5 := .zero, b4 := .wgm 3, b3 := .wgm 2, b2 := .cs 2, b1 := .cs 1, b0 := .cs 0 }

/-- CTRL_C of a 16-bit timer (R132). -/
def ctrlC16Default : CtlByte :=
  { b7 := .zero, b6 := .zero, b5 := .zero, b4 := .zero, b3 := .zero, b2 := .zero, b1 := .zero, b0 := .zero }

/-- CTRL_A of an 8-bit timer (R133). -/
def ctrlA8Default : CtlByte :=
  { b7 := .com .A 1, b6 := .com .A 0, b5 := .com .B 1, b4 := .com .B 0,
    b3 := .zero, b2 := .zero, b1 := .wgm 1, b0 := .wgm 0 }

/-- CTRL_B of an 8-bit timer (R133). -/
def ctrlB8Default : CtlByte :=
  { b7 := .zero, b6 := .zero, b5 := .zero, b4 := .zero, b3 := .wgm 2, b2 := .cs 2, b1 := .cs 1, b0 := .cs 0 }

/-- The default `LAYOUT` (R16, R131–R133). -/
def layoutDefault : Layout :=
  { wgmFast16 := 0b1110, wgmFast8 := 0b011, comOff := 0b00, comClear := 0b10, comSet := 0b11,
    ctrlA16 := ctrlA16Default, ctrlB16 := ctrlB16Default, ctrlC16 := ctrlC16Default,
    ctrlA8 := ctrlA8Default, ctrlB8 := ctrlB8Default }

/-- `REGADDR[t]` of P0. The spec leaves the addresses open and no rule depends on them (R12): the eight registers
of timer `t` are numbered from `16 * t` (DESIGN CHOICE, notes/assumptions/3.md). -/
def regAddrP0 (t : Nat) : RegAddrs :=
  { ctrlA := 16 * t, ctrlB := 16 * t + 1, ctrlC := 16 * t + 2, cnt := 16 * t + 4,
    icr := 16 * t + 6, ocrA := 16 * t + 8, ocrB := 16 * t + 10, ocrC := 16 * t + 12 }

/-- A timer of P0 (spec/95_test_vectors.md section 0). -/
def timerCfgP0 (is16 : Bool) (nch : ChannelCount) (t : Nat) : TimerCfg :=
  { is16 := is16, nch := nch, fclk := 16000000, csTable := csTableDefault, regAddr := regAddrP0 t }

/-- P0's timers 0, 1 and 2; the rows of the 13 unit numbers without a timer are never consulted. -/
def timersP0 : Vector TimerCfg 16 :=
  #v[timerCfgP0 false .two 0, timerCfgP0 true .three 1, timerCfgP0 true .two 2, timerCfgP0 false .two 3,
     timerCfgP0 false .two 4, timerCfgP0 false .two 5, timerCfgP0 false .two 6, timerCfgP0 false .two 7,
     timerCfgP0 false .two 8, timerCfgP0 false .two 9, timerCfgP0 false .two 10, timerCfgP0 false .two 11,
     timerCfgP0 false .two 12, timerCfgP0 false .two 13, timerCfgP0 false .two 14, timerCfgP0 false .two 15]

/-- P0's `PIN_MAP`. -/
def pinMapP0 : List (Half × (UnitNo × Channel)) :=
  [(9, (1, .A)), (10, (1, .B)), (11, (1, .C)), (6, (0, .A)), (5, (0, .B)), (13, (2, .A)), (12, (2, .C))]

/-- The fixture platform P0 (spec/95_test_vectors.md section 0). -/
def platformP0 : Platform :=
  { numTimers := 3, timers := timersP0, numGenerators := 4, pinMap := pinMapP0, layout := layoutDefault,
    reg16Order := .highThenLow, overrange := .saturate }

end Sys2Proof
end

