-- ==== Sys2Proof/Machine/State.lean ====
section
/-! DEFINITION. The state of the block as plain data (spec/10_state.md R36–R64), the events of its trace (R24),
the reasons a step can stop, and the state after reset. -/

namespace Sys2Proof.Machine

/-- `MODE[t]`, the configuration cache's mode (R47): codes 0, 1 and 2. Code 3 is never written and has no name. -/
inductive Mode where
  | unconfigured | normal | fastPwm
deriving DecidableEq, Repr

/-- `SH[t]`, the shadow control fields of a timer (R42–R45). -/
structure Shadow where
  /-- `SH[t].WGM`, u4; bit 3 is 0 on an 8-bit timer (R43). -/
  wgm : BitVec 4
  /-- `SH[t].CS` (R44). -/
  cs : BitVec 3
  /-- `SH[t].COM[A]` (R45). -/
  comA : BitVec 2
  /-- `SH[t].COM[B]` (R45). -/
  comB : BitVec 2
  /-- `SH[t].COM[C]` (R45). -/
  comC : BitVec 2
deriving DecidableEq, Repr

/-- The record of one timer (R41–R49). -/
structure TimerRec where
  /-- `SH[t]` (R42). -/
  shadow : Shadow
  /-- `PS_STAGED[t]` (R46). -/
  psStaged : Prescaler
  /-- `MODE[t]` (R47). -/
  mode : Mode
  /-- `PS_APPLIED[t]` (R48). -/
  psApplied : Prescaler
  /-- `TOP[t]` (R49). -/
  top : Half
deriving DecidableEq, Repr

/-- The record of one generator slot (R50–R57). -/
structure GenRec where
  /-- `G[g].VALID` (R50). -/
  valid : Bool
  /-- `G[g].PIN` (R51). -/
  pin : Half
  /-- `G[g].T` (R51). -/
  timer : UnitNo
  /-- `G[g].CH` (R51). -/
  ch : Channel
  /-- `G[g].MIN` (R52). -/
  minUs : Half
  /-- `G[g].MAX` (R52). -/
  maxUs : Half
  /-- `G[g].MID` (R53). -/
  mid : Half
  /-- `G[g].MPD` (R54). -/
  mpd : Half
  /-- `G[g].MPP` (R55). -/
  mpp : Half
  /-- `G[g].N`, 17 bits (R56). -/
  n : BitVec 17
  /-- `G[g].PW` (R57). -/
  pw : Half
deriving DecidableEq, Repr

/-- The value of one register write: `n` bytes with `n` 1 or 2 (R20). -/
inductive RegValue where
  | byte (v : Byte)
  | half (v : Half)
deriving DecidableEq, Repr

/-- The events of the trace (R24). -/
inductive Event where
  /-- `IE(v)`: the block writes the host's interrupt enable. -/
  | ie (v : Bool)
  /-- `W(t, r, n, v)`: the block writes register `r` of timer `t`. -/
  | write (t : UnitNo) (r : RegName) (v : RegValue)
  /-- `PIN_OUT(pin)`: the request to the pin-direction collaborator. -/
  | pinOut (pin : Half)
deriving DecidableEq, Repr

/-- Faults. There is none: the spec defines no condition under which the block halts (R230), and every step answers
a next state. Nobody raises one, so the type is safe: it rules out a behaviour the spec rules out too. -/
inductive Fault
deriving DecidableEq, Repr

/-- Refusals. -/
inductive Refusal where
  /-- An instruction without a meaning yet, raised by its arm of `exec` only (safe: the machine stops). No arm
  raises it: all ten commands have their meaning. -/
  | notModelled (mnemonic : String)
deriving DecidableEq, Repr

/-- The state of the machine. `csp` to `gens` are the block's (R64), `ie` is the host's and the block reads and
writes it (R38). `platform`, `port`, `trace` and `draws` are the model's own: the parameters (R62), the words the
host writes (R31), the output trace (R24) and the number of free values drawn. -/
structure State where
  /-- The parameters of R7–R18; no step changes them. -/
  platform : Platform
  /-- The command words the host writes to the command port and the block has not consumed, in order (R31). -/
  port : List Word
  /-- `CSP` (R36). -/
  csp : Nat
  /-- `CBUF` (R37). -/
  cbuf : List Word
  /-- `IE` (R38). -/
  ie : Bool
  /-- `STATUS` (R39). -/
  status : Byte
  /-- `RESULT` (R40). -/
  result : Word
  /-- The timer records; the first `NUM_TIMERS` exist (R7). -/
  timers : Vector TimerRec 16
  /-- The generator records; the first `NUM_GENERATORS` exist (R14). -/
  gens : Vector GenRec 16
  /-- The output trace, oldest event first (R24). -/
  trace : List Event
  /-- How many free values have been drawn. -/
  draws : Nat
deriving DecidableEq, Repr

/-- A timer's record at reset (R64). -/
def timerReset : TimerRec :=
  { shadow := { wgm := 0, cs := 0, comA := 0, comB := 0, comC := 0 }
    psStaged := .none, mode := .unconfigured, psApplied := .none, top := 0 }

/-- A generator slot at reset: `VALID = 0` (R64). The spec leaves the other fields unspecified and unreadable; the
model names 0 and channel A (DESIGN CHOICE, notes/assumptions/5.md). -/
def genReset : GenRec :=
  { valid := false, pin := 0, timer := 0, ch := .A, minUs := 0, maxUs := 0, mid := 0, mpd := 0, mpp := 0,
    n := 0, pw := 0 }

/-- The machine right after reset (R64, R260, R262) on the fixture platform P0 with the host's IE = 1 and no word
written (DESIGN CHOICE, notes/assumptions/2.md, 4.md and 7.md). -/
def State.reset : State :=
  { platform := platformP0
    port := []
    csp := 0
    cbuf := []
    ie := true
    status := 0x00
    result := 0x00000000
    timers := Vector.replicate 16 timerReset
    gens := Vector.replicate 16 genReset
    trace := []
    draws := 0 }

end Sys2Proof.Machine
end

