-- ==== Sys2Proof/Machine/Operands.lean ====
section
/-! DEFINITION. The operand forms of the commands and the exact arithmetic on them: prescaler codes (R41), channel
sets (R108), binary32 (R23), rounding and clamping (R21, R22), bounds and their derived values (R181, R182), the
auto-tune (R186), ticks (R198), and the composition of control bytes (R135). Nothing here reads or writes State. -/

namespace Sys2Proof.Machine

/-! ## Prescalers -/

/-- The 3-bit code of a prescaler (R41). -/
def psCode : Prescaler → BitVec 3
  | .none => 0
  | .div8 => 1
  | .div64 => 2
  | .div256 => 3
  | .div1024 => 4

/-- The prescaler of a code; 5, 6 and 7 are none (R41, R107). -/
def psOfCode (p : BitVec 3) : Option Prescaler :=
  if p = 0 then some .none
  else if p = 1 then some .div8
  else if p = 2 then some .div64
  else if p = 3 then some .div256
  else if p = 4 then some .div1024
  else none

/-- `div(PS)` (R41). -/
def psDiv : Prescaler → Nat
  | .none => 1
  | .div8 => 8
  | .div64 => 64
  | .div256 => 256
  | .div1024 => 1024

/-- `CS_TABLE[t][p]` (R11). -/
def csCode (c : TimerCfg) : Prescaler → BitVec 3
  | .none => c.csTable.none
  | .div8 => c.csTable.div8
  | .div64 => c.csTable.div64
  | .div256 => c.csTable.div256
  | .div1024 => c.csTable.div1024

/-- The 2-bit code of a mode (R47). -/
def modeCode : Mode → BitVec 2
  | .unconfigured => 0
  | .normal => 1
  | .fastPwm => 2

/-! ## Channels and registers -/

/-- The index of a channel: A 0, B 1, C 2 (R9). -/
def chanIndex : Channel → Nat
  | .A => 0
  | .B => 1
  | .C => 2

/-- `mask[index(ch)] = 1` (R108, R155). -/
def maskHas (mask : BitVec 3) (ch : Channel) : Bool := mask.getLsbD (chanIndex ch)

/-- `bit(ch)` (R198). -/
def maskOf : Channel → BitVec 3
  | .A => 0b001
  | .B => 0b010
  | .C => 0b100

/-- `present(t, ch)` (R155). -/
def chanPresent (c : TimerCfg) : Channel → Bool
  | .A => true
  | .B => true
  | .C => c.is16 && decide (c.nch = .three)

/-- The compare register of a channel (R72). -/
def ocrReg : Channel → RegName
  | .A => .ocrA
  | .B => .ocrB
  | .C => .ocrC

/-- A value at the width of a timer's counter and compare registers: 16 bits, or its low 8 bits (R74, R159). -/
def timerWide (c : TimerCfg) (v : Half) : RegValue :=
  if c.is16 then .half v else .byte (v.setWidth 8)

/-- `n`, the number of bytes of a register write (R20). -/
def regValueBytes : RegValue → Nat
  | .byte _ => 1
  | .half _ => 2

/-- The value written, zero-extended to 16 bits. -/
def regValueHalf : RegValue → Half
  | .byte v => v.setWidth 16
  | .half v => v

/-- The width in bytes of a register of a timer; none where the timer lacks it or the block never writes it there
(the table of R72). -/
def regWidth (c : TimerCfg) : RegName → Option Nat
  | .ctrlA => some 1
  | .ctrlB => some 1
  | .ctrlC => if c.is16 then some 1 else none
  | .cnt => if c.is16 then some 2 else some 1
  | .icr => if c.is16 then some 2 else none
  | .ocrA => if c.is16 then some 2 else some 1
  | .ocrB => if c.is16 then some 2 else some 1
  | .ocrC => if c.is16 && decide (c.nch = .three) then some 2 else none

/-- `REGADDR[t][r]` (R12). -/
def regAddrOf (a : RegAddrs) : RegName → Nat
  | .ctrlA => a.ctrlA
  | .ctrlB => a.ctrlB
  | .ctrlC => a.ctrlC
  | .cnt => a.cnt
  | .icr => a.icr
  | .ocrA => a.ocrA
  | .ocrB => a.ocrB
  | .ocrC => a.ocrC

/-- The byte writes of one register write on an 8-bit register bus, in order (R76, `REG16_ORDER` of R17). -/
def busBytes (o : Reg16Order) : RegValue → List Byte
  | .byte v => [v]
  | .half v =>
    match o with
    | .highThenLow => [v.extractLsb' 8 8, v.extractLsb' 0 8]
    | .lowThenHigh => [v.extractLsb' 0 8, v.extractLsb' 8 8]

/-! ## Control bytes -/

/-- `SH[t].COM[ch]`. -/
def shadowCom (sh : Shadow) : Channel → BitVec 2
  | .A => sh.comA
  | .B => sh.comB
  | .C => sh.comC

/-- `SH[t].COM[ch] <- v`. -/
def setShadowCom (ch : Channel) (v : BitVec 2) (sh : Shadow) : Shadow :=
  match ch with
  | .A => { sh with comA := v }
  | .B => { sh with comB := v }
  | .C => { sh with comC := v }

/-- `SH[t].WGM`, `CS` and `COM` of a mode-set (R143). `COM[C]` of a timer without channel C stays 0 (R45;
notes/assumptions/15.md). -/
def modeShadow (l : Layout) (c : TimerCfg) (wgm : BitVec 4) (p : Prescaler) : Shadow :=
  { wgm := wgm, cs := csCode c p, comA := l.comOff, comB := l.comOff
    comC := if chanPresent c .C then l.comOff else 0 }

/-- `WGM_FAST16` or `WGM_FAST8` (R131, R149). -/
def wgmFast (l : Layout) (c : TimerCfg) : BitVec 4 :=
  if c.is16 then l.wgmFast16 else l.wgmFast8.setWidth 4

/-- The TOP in force on a timer in fast-PWM mode: the one given on a 16-bit timer, `TOP8` on an 8-bit timer (R15,
R150). -/
def topInForce (c : TimerCfg) (top : Half) : Nat := if c.is16 then top.toNat else Config.top8

/-- The fast-PWM period in ticks (R151): `TOP + 1`, hence 256 on an 8-bit timer (R150, R190). -/
def pwmPeriod (c : TimerCfg) (top : Half) : Nat := topInForce c top + 1

/-- The value of one bit of a control register (R132–R134); `COM[C]` is composed only where channel C is present. -/
def ctlBit (c : TimerCfg) (sh : Shadow) : CtlBit → Bool
  | .zero => false
  | .wgm i => sh.wgm.getLsbD i
  | .cs i => sh.cs.getLsbD i
  | .com ch i => chanPresent c ch && (shadowCom sh ch).getLsbD i

/-- A control byte composed from the shadow by a row of the placement tables (R132, R133). -/
def ctlByte (c : TimerCfg) (sh : Shadow) (b : CtlByte) : Byte :=
  BitVec.ofBool (ctlBit c sh b.b7) ++ BitVec.ofBool (ctlBit c sh b.b6) ++ BitVec.ofBool (ctlBit c sh b.b5) ++
    BitVec.ofBool (ctlBit c sh b.b4) ++ BitVec.ofBool (ctlBit c sh b.b3) ++ BitVec.ofBool (ctlBit c sh b.b2) ++
    BitVec.ofBool (ctlBit c sh b.b1) ++ BitVec.ofBool (ctlBit c sh b.b0)

/-- `composeA` (R135). -/
def composeA (l : Layout) (c : TimerCfg) (sh : Shadow) : Byte :=
  ctlByte c sh (if c.is16 then l.ctrlA16 else l.ctrlA8)

/-- `composeB` (R135). -/
def composeB (l : Layout) (c : TimerCfg) (sh : Shadow) : Byte :=
  ctlByte c sh (if c.is16 then l.ctrlB16 else l.ctrlB8)

/-- `composeC`, 16-bit timers only (R135). -/
def composeC (l : Layout) (c : TimerCfg) (sh : Shadow) : Byte :=
  ctlByte c sh l.ctrlC16

/-! ## Exact arithmetic -/

/-- `rnd(a / b)` for an integer `a` and a positive `b`: to nearest, halves away from zero (R21). -/
def rnd (a : Int) (b : Nat) : Int :=
  if 0 ≤ a then (2 * a + b) / (2 * b) else -((2 * (-a) + b) / (2 * b))

/-- `clamp(x, lo, hi)` (R22). -/
def clamp (x lo hi : Int) : Int := if x < lo then lo else if hi < x then hi else x

/-- An exact rational `num / den`, `den` positive. -/
structure Ratio where
  num : Int
  den : Nat
deriving DecidableEq, Repr

/-- The value of a binary32 pattern (R23). -/
inductive F32 where
  | nan
  | negInf
  | posInf
  | finite (q : Ratio)
deriving DecidableEq, Repr

/-- `f32(w)` (R23): sign bit 31, biased exponent bits 30:23, fraction bits 22:0. The value of the exponents 0
(subnormal) and 255 (infinities, NaN) and the bias 127 are IEEE 754's (PRESUMED, notes/assumptions/13.md). -/
def f32 (w : Word) : F32 :=
  let e := (w.extractLsb' 23 8).toNat
  let f := (w.extractLsb' 0 23).toNat
  if e = 255 then
    if f ≠ 0 then .nan else if w.getLsbD 31 then .negInf else .posInf
  else
    let m : Nat := if e = 0 then f else 2 ^ 23 + f
    let k := if e = 0 then 1 else e
    .finite { num := (if w.getLsbD 31 then -(m : Int) else m) * (2 ^ (k - 150) : Nat), den := 2 ^ (150 - k) }

/-! ## Bounds and derived values -/

/-- Bounds validation: the defaults where `min ≥ max` (R181). -/
def validBounds (minIn maxIn : Half) : Half × Half :=
  if maxIn.toNat ≤ minIn.toNat then (Config.defaultMinUs, Config.defaultMaxUs) else (minIn, maxIn)

/-- `MID` (R182). -/
def midUs (mn mx : Half) : Half := BitVec.ofInt 16 (rnd ((mn.toNat : Int) + mx.toNat) 2)

/-- `MPD` (R182). -/
def microsPerDegree (mn mx : Half) : Half :=
  BitVec.ofInt 16 (rnd ((mx.toNat : Int) - mn.toNat) Config.angleSpan)

/-- `MPP` (R182). -/
def microsPerPercent (mn mx : Half) : Half :=
  BitVec.ofInt 16 (rnd ((mx.toNat : Int) - mn.toNat) Config.percentSpan)

/-! ## Auto-tune -/

/-- The tick count per ~50 Hz period of a clock of `f` Hz behind a divisor (R185, R186). -/
def periodTicks (f div : Nat) : Nat := f / (Config.refreshHz * div)

/-- The prescaler and tick count the auto-tune selects for a clock of `f` Hz, legal or not (R186). -/
def autoTuneSelect (f : Nat) : Prescaler × Nat :=
  let n8 := periodTicks f Config.baseDiv
  if Config.counter16Max < n8 then (.div64, periodTicks f Config.escalatedDiv)
  else if n8 < Config.tickFloor then (.none, periodTicks f 1)
  else (.div8, n8)

/-- `AutoTune(t)` (R186, R187): none where the tick count is outside `[1, 0x10000]` and BAD_CLOCK is raised. -/
def autoTune (f : Nat) : Option (Prescaler × Nat) :=
  let pn := autoTuneSelect f
  if pn.2 < 1 ∨ 0x10000 < pn.2 then none else some pn

/-! ## Requested widths and ticks -/

/-- `rnd(N * pw / 20000)` (R198). -/
def ticksOf (n pw : Nat) : Nat := (rnd ((n : Int) * pw) Config.periodUs).toNat

/-- The width an angle of `q` degrees asks for (R204–R207, R209). -/
def angleTarget (r : GenRec) (q : Ratio) : Int :=
  if q.num < -(Config.angleLimit : Int) * q.den then r.minUs.toNat
  else if (Config.angleLimit : Int) * q.den < q.num then r.maxUs.toNat
  else r.mid.toNat + rnd (q.num * r.mpd.toNat) q.den

/-- The width a percentage of `q` asks for (R212–R214): absolute, not offset from MIN. -/
def percentTarget (r : GenRec) (q : Ratio) : Int :=
  if q.num < 0 then r.minUs.toNat
  else if (Config.percentLimit : Int) * q.den < q.num then r.maxUs.toNat
  else rnd (q.num * r.mpp.toNat) q.den

end Sys2Proof.Machine
end

