-- ==== Sys2Proof/Machine/Flags.lean ====
section
/-! DEFINITION. The flags: STATUS (spec/10_state.md R39, spec/60_exceptions.md R231, R232) and the host's IE with
the critical section that saves, clears and restores it (R38, R136, R137). There are no condition codes (R61). -/

namespace Sys2Proof.Machine

/-! ## STATUS -/

/-- The command errors (R232). -/
inductive ErrCode where
  | illegalOpcode | reserved | badUnit | badPrescaler | unconstructed | badPin | badClock
deriving DecidableEq, Repr

/-- The code of an error (R232). -/
def errNumber : ErrCode → BitVec 4
  | .illegalOpcode => 1
  | .reserved => 2
  | .badUnit => 3
  | .badPrescaler => 4
  | .unconstructed => 5
  | .badPin => 6
  | .badClock => 7

/-- `STATUS.ERR`, bit 0 (R39). -/
def statusErr (st : Byte) : Bool := st.getLsbD 0

/-- `STATUS.ERRCODE`, bits 7:4 (R39). -/
def statusCode (st : Byte) : BitVec 4 := st.extractLsb' 4 4

/-- STATUS after an error: the first error is kept (R231). -/
def recordError (e : ErrCode) (st : Byte) : Byte :=
  if statusErr st then st else errNumber e ++ (0b0001 : BitVec 4)

/-! ## The trace and IE -/

/-- Appends an event to the trace (R24). -/
def emit (e : Event) (s : State) : State := { s with trace := s.trace ++ [e] }

/-- `IE <- v`, with its event (R20). -/
def setIE (v : Bool) (s : State) : State := emit (.ie v) { s with ie := v }

/-- A critical section: IE saved and cleared before the body, restored after it (R136, R137). -/
def critical (body : State → State) (s : State) : State := setIE s.ie (body (setIE false s))

end Sys2Proof.Machine
end

