-- ==== Sys2Proof/Machine/Ops.lean ====
section
/-! DEFINITION. The named operations over the state: the command error, the register write, the atomic commit, the
timer operations and the pulse write of the converter, the host's side of the interface, and the block's reset. -/

namespace Sys2Proof.Machine

/-! ## Records -/

/-- The parameters of timer `t`. -/
def State.cfg (s : State) (t : UnitNo) : TimerCfg := s.platform.timers[t.val]

/-- The record of timer `t`. -/
def State.timer (s : State) (t : UnitNo) : TimerRec := s.timers[t.val]

/-- Replaces the record of timer `t`. -/
def setTimer (t : UnitNo) (r : TimerRec) (s : State) : State := { s with timers := s.timers.set t.val r }

/-- The record of generator slot `g`. -/
def State.gen (s : State) (g : UnitNo) : GenRec := s.gens[g.val]

/-- Replaces the record of generator slot `g`. -/
def setGen (g : UnitNo) (r : GenRec) (s : State) : State := { s with gens := s.gens.set g.val r }

/-! ## Command errors (R230–R233) -/

/-- `raise CommandError(code)`: STATUS keeps the first error, nothing else changes (R231). This is the block's only
exception; it transfers no control, saves nothing and has no return (R230, R239, R240). -/
def raiseError (e : ErrCode) (s : State) : State := { s with status := recordError e s.status }

/-- Runs `k` on a timer that exists, or raises BAD_UNIT (R106). -/
def withTimer (t : UnitNo) (s : State) (k : State → State) : Host.Outcome State Fault Refusal :=
  if t.val < s.platform.numTimers then .next (k s) else .next (raiseError .badUnit s)

/-- Runs `k` on a generator that exists and is constructed, or raises BAD_UNIT or UNCONSTRUCTED (R106, R50). -/
def withGenerator (g : UnitNo) (s : State) (k : State → State) : Host.Outcome State Fault Refusal :=
  if g.val < s.platform.numGenerators then
    if (s.gen g).valid then .next (k s) else .next (raiseError .unconstructed s)
  else .next (raiseError .badUnit s)

/-- `RESULT <- v` (R40). -/
def setResult (v : Word) (s : State) : State := { s with result := v }

/-! ## Register writes (R20, R72–R76) -/

/-- `MemWrite(REGADDR[t][r], n, v)` (R20): the block's only access to a peripheral. -/
def memWrite (t : UnitNo) (r : RegName) (v : RegValue) (s : State) : State := emit (.write t r v) s

/-- `Commit(t)`: CTRL_A, CTRL_C on a 16-bit timer, CTRL_B last, all composed from the shadow (R138, R140). -/
def commit (t : UnitNo) (s : State) : State :=
  let l := s.platform.layout
  let c := s.cfg t
  let sh := (s.timer t).shadow
  let s := memWrite t .ctrlA (.byte (composeA l c sh)) s
  let s := if c.is16 then memWrite t .ctrlC (.byte (composeC l c sh)) s else s
  memWrite t .ctrlB (.byte (composeB l c sh)) s

/-! ## Timer operations (R136–R163) -/

/-- The effect of TSETPS: stage prescaler `p` (R141, R142). -/
def stagePrescaler (t : UnitNo) (p : Prescaler) (s : State) : State :=
  setTimer t { s.timer t with psStaged := p } s

/-- What a mode-set does inside its critical section (R143–R145, R149): the shadow, ICR where a TOP is to be
written, the commit, the counter reset, the configuration cache. -/
def modeSetBody (t : UnitNo) (wgm : BitVec 4) (icr : Option Half) (mode : Mode) (top : Half) (s : State) : State :=
  let c := s.cfg t
  let p := (s.timer t).psStaged
  let s := setTimer t { s.timer t with shadow := modeShadow s.platform.layout c wgm p } s
  let s := match icr with
    | some v => memWrite t .icr (.half v) s
    | none => s
  let s := commit t s
  let s := memWrite t .cnt (timerWide c 0) s
  setTimer t { s.timer t with mode := mode, psApplied := p, top := top } s

/-- The effect of TMODEN (R145). -/
def modeNormal (t : UnitNo) (s : State) : State :=
  critical (modeSetBody t 0 none .normal 0) s

/-- The effect of TMODEF (R149, R150): ICR is written on a 16-bit timer only. -/
def modeFast (t : UnitNo) (top : Half) (s : State) : State :=
  let c := s.cfg t
  critical (modeSetBody t (wgmFast s.platform.layout c) (if c.is16 then some top else none) .fastPwm top) s

/-- One channel of a compare write: the COM field, then the compare register, where the channel is requested and
present (R155, R156, R159, R160). -/
def compareChannel (t : UnitNo) (mask : BitVec 3) (inv : Bool) (value : Half) (ch : Channel) (s : State) : State :=
  let c := s.cfg t
  if maskHas mask ch && chanPresent c ch then
    let com := if inv then s.platform.layout.comSet else s.platform.layout.comClear
    let s := setTimer t { s.timer t with shadow := setShadowCom ch com (s.timer t).shadow } s
    memWrite t (ocrReg ch) (timerWide c value) s
  else s

/-- The effect of TSETCMP: the channels A, B, C in order, then the commit, in one critical section (R155–R163). -/
def compareWrite (t : UnitNo) (mask : BitVec 3) (inv : Bool) (value : Half) (s : State) : State :=
  critical (fun s =>
    let s := compareChannel t mask inv value .A s
    let s := compareChannel t mask inv value .B s
    let s := compareChannel t mask inv value .C s
    commit t s) s

/-- What TQUERY reads: `{0, MODE, 0, PS_STAGED, 0, PS_APPLIED, TOP}` (R170). -/
def configWord (r : TimerRec) : Word :=
  (0 : BitVec 6) ++ modeCode r.mode ++ (0 : BitVec 1) ++ psCode r.psStaged ++ (0 : BitVec 1) ++
    psCode r.psApplied ++ r.top

/-! ## The pulse-width converter (R180–R216) -/

/-- One free u16 value (R199, R208, R216): draw number `draws` of `Config.freeHalf`, and the state with the draw
counted. -/
def drawHalf (s : State) : Half × State := (Config.freeHalf s.draws, { s with draws := s.draws + 1 })

/-- The compare value for a tick count: itself, or the over-range policy's value (R199). -/
def compareValue (ticks : Nat) (s : State) : Half × State :=
  if ticks ≤ Config.counter16Max then (BitVec.ofNat 16 ticks, s)
  else match s.platform.overrange with
    | .saturate => (0xFFFF, s)
    | .any => drawHalf s

/-- `PulseWrite(g, x)` (R198): clamp and store the width, convert it to ticks, write the generator's channel with
`inv = 0` (R200). -/
def pulseWrite (g : UnitNo) (x : Int) (s : State) : State :=
  let r := s.gen g
  let pw : Half := BitVec.ofInt 16 (clamp x r.minUs.toNat r.maxUs.toNat)
  let s := setGen g { r with pw := pw } s
  let vs := compareValue (ticksOf r.n.toNat pw.toNat) s
  compareWrite r.timer (maskOf r.ch) false vs.1 vs.2

/-- The integer width a binary32 operand asks of slot `g`: `target` of a finite value, MIN and MAX for the
infinities, and for NaN some integer in `[MIN, MAX]`, a free value (R204, R208, R212, R216). -/
def requestWidth (g : UnitNo) (target : GenRec → Ratio → Int) (x : Word) (s : State) : Int × State :=
  let r := s.gen g
  match f32 x with
  | .nan => (clamp ((drawHalf s).1.toNat : Int) r.minUs.toNat r.maxUs.toNat, (drawHalf s).2)
  | .negInf => (r.minUs.toNat, s)
  | .posInf => (r.maxUs.toNat, s)
  | .finite q => (target r q, s)

/-- PulseWrite of a requested width, with the success indicator (R196, R201). -/
def pulseCommand (g : UnitNo) (xs : Int × State) : State := setResult 1 (pulseWrite g xs.1 xs.2)

/-- The record SINIT constructs in a slot whose last width was `pw` (R180–R183, R189). -/
def newGenerator (pin minIn maxIn : Half) (t : UnitNo) (ch : Channel) (n : Nat) (pw : Half) : GenRec :=
  let b := validBounds minIn maxIn
  { valid := true, pin := pin, timer := t, ch := ch, minUs := b.1, maxUs := b.2
    mid := midUs b.1 b.2, mpd := microsPerDegree b.1 b.2, mpp := microsPerPercent b.1 b.2
    n := BitVec.ofNat 17 n, pw := pw }

/-- The configuration cache of timer `t` already holds fast-PWM with prescaler `p` and period `n` (R191). -/
def configured (s : State) (t : UnitNo) (p : Prescaler) (n : Nat) : Bool :=
  decide ((s.timer t).mode = .fastPwm) && decide ((s.timer t).psApplied = p) &&
    decide ((s.timer t).top = BitVec.ofNat 16 (n - 1))

/-- Stages `p` and programs fast-PWM with TOP `n - 1`, unless the timer is configured so (R191, R192). -/
def configureTimer (t : UnitNo) (p : Prescaler) (n : Nat) (s : State) : State :=
  if configured s t p n then s else modeFast t (BitVec.ofNat 16 (n - 1)) (stagePrescaler t p s)

/-- The effect of an SINIT whose checks passed (R180). -/
def constructGenerator (g : UnitNo) (pin minIn maxIn init : Half) (t : UnitNo) (ch : Channel) (p : Prescaler)
    (n : Nat) (s : State) : State :=
  let s := setGen g (newGenerator pin minIn maxIn t ch n (s.gen g).pw) s
  let s := emit (.pinOut pin) s
  let s := configureTimer t p n s
  pulseWrite g init.toNat s

/-! ## The host's side (R30–R32, R38, R87) -/

/-- The host writes a command word (R31). -/
def hostWrite (w : Word) (s : State) : State := { s with port := s.port ++ [w] }

/-- The host reads STATUS, zero-extended (R32, R39). -/
def hostReadStatus (s : State) : Word := s.status.setWidth 32

/-- The host reads RESULT (R32, R40). -/
def hostReadResult (s : State) : Word := s.result

/-- The host sets its interrupt enable between block steps; the block emits no event for it (R38, R87). -/
def hostSetIE (v : Bool) (s : State) : State := { s with ie := v }

/-! ## Reset (R260–R263) -/

/-- A reset of the block in any state: every element of block state at its reset value (R64, R260), a partial
command discarded (R263), nothing written to a peripheral and IE left alone (R261). What is not the block's stays:
the parameters, the words the host has still to write, the trace (notes/assumptions/14.md). -/
def blockReset (s : State) : State :=
  { s with
    csp := 0
    cbuf := []
    status := 0x00
    result := 0x00000000
    timers := Vector.replicate 16 timerReset
    gens := Vector.replicate 16 genReset }

/-! ## Following the peripherals through the trace (R59, R12, R76) -/

/-- The value last written to register `r` of timer `t` in a trace, or none (R59). -/
def lastWrite (t : UnitNo) (r : RegName) : List Event → Option RegValue
  | [] => none
  | e :: rest =>
    match lastWrite t r rest with
    | some v => some v
    | none =>
      match e with
      | .write t' r' v => if t' = t ∧ r' = r then some v else none
      | .ie _ => none
      | .pinOut _ => none

/-- The platform address a register write goes to (R12, R80). -/
def writeAddress (p : Platform) (t : UnitNo) (r : RegName) : Nat := regAddrOf p.timers[t.val].regAddr r

/-- What a trace puts on an 8-bit register bus: for every write its register's address and the bytes in order
(R76). -/
def busTrace (p : Platform) : List Event → List (Nat × List Byte)
  | [] => []
  | .write t r v :: rest => (writeAddress p t r, busBytes p.reg16Order v) :: busTrace p rest
  | .ie _ :: rest => busTrace p rest
  | .pinOut _ :: rest => busTrace p rest

end Sys2Proof.Machine
end

