-- ==== Sys2Proof/Machine/Pulse.lean ====
section
/-! DEFINITION. The meanings of the generator commands (spec/41_pulse.md). -/

namespace Sys2Proof.Machine

/-- SINIT (R180): BAD_UNIT, BAD_PIN, BAD_CLOCK in this order before any effect (R194, R232). -/
def execSinit (g : UnitNo) (pin minUs maxUs initUs : Half) (s : State) : Host.Outcome State Fault Refusal :=
  if g.val < s.platform.numGenerators then
    match s.platform.pinMap.lookup pin with
    | none => .next (raiseError .badPin s)
    | some tc =>
      match autoTune (s.cfg tc.1).fclk with
      | none => .next (raiseError .badClock s)
      | some pn => .next (constructGenerator g pin minUs maxUs initUs tc.1 tc.2 pn.1 pn.2 s)
  else .next (raiseError .badUnit s)

/-- SSETPW (R196). -/
def execSsetpw (g : UnitNo) (pw : Half) (s : State) : Host.Outcome State Fault Refusal :=
  withGenerator g s fun s => pulseCommand g (pw.toNat, s)

/-- SSETANG (R204). -/
def execSsetang (g : UnitNo) (x : Word) (s : State) : Host.Outcome State Fault Refusal :=
  withGenerator g s fun s => pulseCommand g (requestWidth g angleTarget x s)

/-- SSETPOS (R212). -/
def execSsetpos (g : UnitNo) (x : Word) (s : State) : Host.Outcome State Fault Refusal :=
  withGenerator g s fun s => pulseCommand g (requestWidth g percentTarget x s)

/-- SQUERY (R224). -/
def execSquery (g : UnitNo) (s : State) : Host.Outcome State Fault Refusal :=
  withGenerator g s fun s => setResult ((s.gen g).pw.setWidth 32) s

end Sys2Proof.Machine
end

