-- ==== Sys2Proof/Machine/Timer.lean ====
section
/-! DEFINITION. The meanings of the timer commands (spec/40_timer.md). -/

namespace Sys2Proof.Machine

/-- TSETPS (R141): BAD_UNIT, then BAD_PRESCALER for the codes 5 to 7 (R232). -/
def execTsetps (t : UnitNo) (p : BitVec 3) (s : State) : Host.Outcome State Fault Refusal :=
  withTimer t s fun s =>
    match psOfCode p with
    | some ps => stagePrescaler t ps s
    | none => raiseError .badPrescaler s

/-- TMODEN (R145). -/
def execTmoden (t : UnitNo) (s : State) : Host.Outcome State Fault Refusal :=
  withTimer t s (modeNormal t)

/-- TMODEF (R149, R150). -/
def execTmodef (t : UnitNo) (top : Half) (s : State) : Host.Outcome State Fault Refusal :=
  withTimer t s (modeFast t top)

/-- TSETCMP (R155). -/
def execTsetcmp (t : UnitNo) (mask : BitVec 3) (inv : Bool) (value : Half) (s : State) :
    Host.Outcome State Fault Refusal :=
  withTimer t s (compareWrite t mask inv value)

/-- TQUERY (R170). -/
def execTquery (t : UnitNo) (s : State) : Host.Outcome State Fault Refusal :=
  withTimer t s fun s => setResult (configWord (s.timer t)) s

end Sys2Proof.Machine
end

