-- ==== Sys2Proof/Machine/Dispatch.lean ====
section
/-! DEFINITION. The dispatch: one arm per command, each one call of its meaning. -/

namespace Sys2Proof.Machine

def exec (i : Instr) (s : State) : Host.Outcome State Fault Refusal :=
  match i with
  | .tsetps t p => Sys2Proof.Machine.execTsetps t p s
  | .tmoden t => Sys2Proof.Machine.execTmoden t s
  | .tmodef t top => Sys2Proof.Machine.execTmodef t top s
  | .tsetcmp t mask inv value => Sys2Proof.Machine.execTsetcmp t mask inv value s
  | .tquery t => Sys2Proof.Machine.execTquery t s
  | .sinit g pin minUs maxUs initUs => Sys2Proof.Machine.execSinit g pin minUs maxUs initUs s
  | .ssetpw g pw => Sys2Proof.Machine.execSsetpw g pw s
  | .ssetang g x => Sys2Proof.Machine.execSsetang g x s
  | .ssetpos g x => Sys2Proof.Machine.execSsetpos g x s
  | .squery g => Sys2Proof.Machine.execSquery g s

end Sys2Proof.Machine
end

