-- ==== Sys2Proof/Machine/Fetch.lean ====
section
/-! DEFINITION. Taking command words from the port (spec/10_state.md R31, R36, R37; spec/30_encoding.md R104): what
one step finds there, and how a command is put there. -/

namespace Sys2Proof.Machine

/-- What the next word on the port makes of the words received. -/
inductive Fetched where
  /-- No word has been written: the block waits (R37, R262). -/
  | waiting
  /-- The word is buffered and the command still lacks words (R37). -/
  | buffered (s : State)
  /-- The words are no command (R113, R115). -/
  | illegal (e : ErrCode) (s : State)
  /-- The last word of a command has arrived and the command executes in the given state (R36, R37). -/
  | command (i : Instr) (s : State)
deriving DecidableEq, Repr

/-- The state in which a command of `n` words executes: its words consumed, CBUF empty, CSP advanced (R36, R37,
R118). -/
def consume (n : Nat) (rest : List Word) (s : State) : State :=
  { s with port := rest, cbuf := [], csp := s.csp + n }

/-- The length in words of the command whose words begin `ws` (R104). -/
def lenOf (ws : List Word) : Nat := opLen (opField (ws.headD 0))

/-- Takes the next word from the port and decodes the words received so far. -/
def fetch (s : State) : Fetched :=
  match s.port with
  | [] => .waiting
  | w :: rest =>
    let ws := s.cbuf ++ [w]
    match decode ws with
    | .error .incomplete => .buffered { s with port := rest, cbuf := ws }
    | .error .illegalOpcode => .illegal .illegalOpcode (consume (lenOf ws) rest s)
    | .error .reserved => .illegal .reserved (consume (lenOf ws) rest s)
    | .ok (i, _) => .command i (consume (lenOf ws) rest s)

/-- The state in which the words `ws` are the next command and its last word is the next to arrive: the words
before it are in CBUF, the last one stands first on the port (notes/assumptions/7.md). -/
def placeCommand (ws : List Word) (s : State) : State :=
  { s with cbuf := ws.dropLast, port := ws.drop (ws.length - 1) ++ s.port }

end Sys2Proof.Machine
end

