-- ==== Sys2Proof/Machine/Step.lean ====
section
/-! DEFINITION. One step: the next word on the command port (spec/10_state.md R36, R37). -/

namespace Sys2Proof.Machine

/-- One step: wait, buffer a word, raise a decode error, or execute the command whose last word arrived. -/
def step (s : State) : Host.Outcome State Fault Refusal :=
  match fetch s with
  | .waiting => .next s
  | .buffered s' => .next s'
  | .illegal e s' => .next (raiseError e s')
  | .command i s' => exec i s'

/-- `s` with the command of the opcode table's bits `w` where the next step executes it. -/
def State.withFetchWord (s : State) (nbits w : Nat) : State := placeCommand (tableWords nbits w) s

end Sys2Proof.Machine
end

