-- ==== Sys2Proof/Safety.lean ====
section
/-! DEFINITION. The terms claims about the machine are made in: the error-free run (spec/60_exceptions.md R235), a
well-formed platform (spec/00_scope.md R7–R14), the invariants the spec's prose gives the state, and what a legal
stretch of trace is. -/

namespace Sys2Proof.Machine

/-- No command error has been recorded: the premise of a claim about a stream's full effect (R235). -/
abbrev NoError (s : State) : Prop := statusErr s.status = false

/-! ## Platforms -/

/-- A well-formed platform: 1 to 16 timers and slots (R7, R14), two channels on an 8-bit timer (R9), positive clocks
(R10), and every pin bound to a timer that exists (R13). -/
abbrev PlatformOk (p : Platform) : Prop :=
  1 ≤ p.numTimers ∧ p.numTimers ≤ 16 ∧ 1 ≤ p.numGenerators ∧ p.numGenerators ≤ 16 ∧
  (∀ t : UnitNo, t.val < p.numTimers →
    (p.timers[t.val].is16 = false → p.timers[t.val].nch = .two) ∧ 1 ≤ p.timers[t.val].fclk) ∧
  ∀ e ∈ p.pinMap, e.2.1.val < p.numTimers

/-! ## Invariants -/

/-- CBUF holds fewer words than the command they begin (R37); in particular at most two. -/
abbrev CbufOk (s : State) : Prop := s.cbuf.length < lenOf s.cbuf

/-- STATUS is 0x00, or ERR with bits 3:1 zero and one of the error codes 1 to 7 (R39, R232). -/
abbrev StatusOk (s : State) : Prop :=
  s.status = 0x00 ∨ (s.status.extractLsb' 0 4 = 1 ∧ 1 ≤ (statusCode s.status).toNat ∧ (statusCode s.status).toNat ≤ 7)

/-- The configuration cache of a timer and its shadow agree (R43, R44, R46–R49): WGM and CS are those of the last
mode-set, TOP is 0 outside fast-PWM, and everything is 0 before the first mode-set. -/
abbrev CacheOk (l : Layout) (c : TimerCfg) (r : TimerRec) : Prop :=
  (r.mode = .unconfigured → r.shadow.wgm = 0 ∧ r.shadow.cs = 0 ∧ r.psApplied = .none ∧ r.top = 0) ∧
  (r.mode = .normal → r.shadow.wgm = 0 ∧ r.shadow.cs = csCode c r.psApplied ∧ r.top = 0) ∧
  (r.mode = .fastPwm → r.shadow.wgm = wgmFast l c ∧ r.shadow.cs = csCode c r.psApplied)

/-- Every COM field holds a value the block writes, and `COM[C]` of a timer without channel C is 0 (R45). -/
abbrev ComOk (l : Layout) (c : TimerCfg) (sh : Shadow) : Prop :=
  (∀ ch ∈ [Channel.A, .B, .C], shadowCom sh ch ∈ [0, l.comOff, l.comClear, l.comSet]) ∧
  (chanPresent c .C = false → sh.comC = 0)

/-- The records of all timers are consistent (R42–R49). -/
abbrev TimersOk (s : State) : Prop :=
  ∀ t : UnitNo, CacheOk s.platform.layout (s.cfg t) (s.timer t) ∧
    ComOk s.platform.layout (s.cfg t) (s.timer t).shadow

/-- The generator invariant of a slot (R50–R58): a constructed slot's fields are those its construction derived,
its pin is in `PIN_MAP`, its tick count is the auto-tune's, and its width lies in `[MIN, MAX]`. -/
abbrev GenOk (p : Platform) (r : GenRec) : Prop :=
  r.valid = true →
    r.minUs.toNat < r.maxUs.toNat ∧
    r.mid = midUs r.minUs r.maxUs ∧
    r.mpd = microsPerDegree r.minUs r.maxUs ∧
    r.mpp = microsPerPercent r.minUs r.maxUs ∧
    p.pinMap.lookup r.pin = some (r.timer, r.ch) ∧
    (autoTune p.timers[r.timer.val].fclk).map Prod.snd = some r.n.toNat ∧
    r.minUs.toNat ≤ r.pw.toNat ∧ r.pw.toNat ≤ r.maxUs.toNat

/-- Every slot meets the generator invariant. -/
abbrev GensOk (s : State) : Prop := ∀ g : UnitNo, GenOk s.platform (s.gen g)

/-- What the trace says of a timer's control registers is what the shadow composes, CTRL_C on a 16-bit timer included
and never written on an 8-bit one (R42, R59, R138, R140), and ICR holds the cached TOP of a 16-bit timer in fast-PWM
mode (R49, R149). -/
abbrev MirrorOk (s : State) : Prop :=
  ∀ t : UnitNo,
    (lastWrite t .ctrlA s.trace ∈
      [none, some (.byte (composeA s.platform.layout (s.cfg t) (s.timer t).shadow))]) ∧
    (lastWrite t .ctrlB s.trace ∈
      [none, some (.byte (composeB s.platform.layout (s.cfg t) (s.timer t).shadow))]) ∧
    ((s.cfg t).is16 = true → lastWrite t .ctrlC s.trace ∈
      [none, some (.byte (composeC s.platform.layout (s.cfg t) (s.timer t).shadow))]) ∧
    ((s.cfg t).is16 = false → lastWrite t .ctrlC s.trace = none) ∧
    ((s.timer t).mode ≠ .unconfigured →
      lastWrite t .ctrlB s.trace ≠ none ∧ lastWrite t .ctrlA s.trace ≠ none ∧
        ((s.cfg t).is16 = true → lastWrite t .ctrlC s.trace ≠ none)) ∧
    ((s.timer t).mode = .fastPwm → (s.cfg t).is16 = true →
      lastWrite t .icr s.trace = some (.half (s.timer t).top))

/-- The invariant of the whole machine. -/
abbrev Inv (s : State) : Prop :=
  PlatformOk s.platform ∧ CbufOk s ∧ StatusOk s ∧ TimersOk s ∧ GensOk s ∧ MirrorOk s

/-! ## Traces -/

/-- A stretch of trace made of whole critical sections that restore `v`, with pin requests between them: register
writes stand only inside a section, a section begins with `IE(0)` and ends with `IE(v)` (R82, R136, R137). The second
argument says whether the stretch begins inside a section. -/
def sectioned (v : Bool) : Bool → List Event → Bool
  | false, [] => true
  | true, [] => false
  | false, .pinOut _ :: rest => sectioned v false rest
  | false, .ie b :: rest => !b && sectioned v true rest
  | false, .write _ _ _ :: _ => false
  | true, .pinOut _ :: _ => false
  | true, .ie b :: rest => decide (b = v) && sectioned v false rest
  | true, .write _ _ _ :: rest => sectioned v true rest

/-- A register write the peripheral has a register of that width for (R72, R74). -/
def legalWrite (p : Platform) : Event → Bool
  | .write t r v => decide (regWidth p.timers[t.val] r = some (regValueBytes v))
  | .ie _ => true
  | .pinOut _ => true

/-- The register writes of an atomic commit of shadow `sh`, in order (R138): CTRL_A, CTRL_C on a 16-bit timer,
CTRL_B. -/
def commitEvents (l : Layout) (c : TimerCfg) (t : UnitNo) (sh : Shadow) : List Event :=
  [.write t .ctrlA (.byte (composeA l c sh))] ++
    (if c.is16 then [.write t .ctrlC (.byte (composeC l c sh))] else []) ++
    [.write t .ctrlB (.byte (composeB l c sh))]

end Sys2Proof.Machine
end

