-- ==== Sys2Proof/Certificates/Slice0/Obligations.lean ====
section
/-! DEFINITION. The statements about the model, for the provers. Each docstring names the rules of spec/ it rests
on. Nothing is proved here. -/

open Sys2Proof Sys2Proof.Machine

/-! ## Encoding (spec/30_encoding.md) -/

/-- R104: the length of a command is fixed by its opcode byte; the decoder collects the further words into CBUF and
executes with the last one. `s.cbuf` may hold any words shorter than their command. -/
def Obligations.LengthDecodeCollectsWords : Prop :=
  (∀ op : Byte, opLen op = if op = 0x20 then 3 else if op = 0x22 ∨ op = 0x23 then 2 else 1) ∧
  ∀ (s : State) (w : Word) (port : List Word), CbufOk s → s.port = w :: port →
    let len := opLen (opField ((s.cbuf ++ [w]).headD 0))
    (s.cbuf.length + 1 < len → step s = .next { s with port := port, cbuf := s.cbuf ++ [w] }) ∧
    (s.cbuf.length + 1 = len →
      ∃ s', step s = .next s' ∧ s'.cbuf = [] ∧ s'.port = port ∧ s'.csp = s.csp + len) ∧
    s.cbuf.length + 1 ≤ len

/-- R101–R103, R105, R107–R112: decoding the words of any command gives the command back and leaves the words that
follow it. -/
def Obligations.DecodeOfEncode : Prop :=
  ∀ (i : Instr) (rest : List Word), decode (encode i ++ rest) = .ok (i, rest)

/-- R113, R115, R117: words decode only if they are the encoding of the command decoded, bit for bit; no other words
stand for it. -/
def Obligations.EncodeOfDecode : Prop :=
  ∀ (ws : List Word) (i : Instr) (rest : List Word), decode ws = .ok (i, rest) → ws = encode i ++ rest

/-- The commands of spec/95_test_vectors.md sections 2 to 5, whose words the spec writes out, decode to the commands
they stand for. -/
def Obligations.SpecWordsDecode : Prop :=
  decode [0x10100002] = .ok (.tsetps 1 2, []) ∧
  decode [0x11100000] = .ok (.tmoden 1, []) ∧
  decode [0x12109C3F] = .ok (.tmodef 1 39999, []) ∧
  decode [0x131B0100] = .ok (.tsetcmp 1 0b011 true 256, []) ∧
  decode [0x14000000] = .ok (.tquery 0, []) ∧
  decode [0x2010000A, 0x09600220, 0x000005C0] = .ok (.sinit 1 10 544 2400 1472, []) ∧
  decode [0x210005DC] = .ok (.ssetpw 0 1500, []) ∧
  decode [0x22000000, 0x42340000] = .ok (.ssetang 0 0x42340000, []) ∧
  decode [0x23100000, 0x42480000] = .ok (.ssetpos 1 0x42480000, []) ∧
  decode [0x24100000] = .ok (.squery 1, [])

/-- R115: every opcode byte outside the opcode map is illegal, is one word long and raises ILLEGAL_OPCODE with no
other effect; the all-zero and the all-ones word are such words. -/
def Obligations.IllegalOpcodesRaise : Prop :=
  (∀ (s : State) (h : Word) (port : List Word), s.cbuf = [] → s.port = h :: port →
    ((opField h).toNat ≤ 0x0F ∨ (0x15 ≤ (opField h).toNat ∧ (opField h).toNat ≤ 0x1F) ∨
      0x25 ≤ (opField h).toNat) →
    step s = .next { s with
      port := port, csp := s.csp + 1, status := if s.status.getLsbD 0 then s.status else 0x11 }) ∧
  (opField 0x00000000).toNat ≤ 0x0F ∧ 0x25 ≤ (opField 0xFFFFFFFF).toNat

/-- R113: a complete command with a non-zero bit in one of its reserved fields raises RESERVED and has no other
effect, whatever its other fields hold. The table is R113's list of the reserved fields of each opcode. -/
def Obligations.ReservedFieldsRaise : Prop :=
  ∀ (s : State) (w : Word) (port ws : List Word) (op : Opcode),
    s.port = w :: port → s.cbuf ++ [w] = ws → opField (ws.headD 0) = opcodeByte op →
    ws.length = opLen (opcodeByte op) →
    (match op with
      | .tsetps => auxField (ws.headD 0) ≠ 0 ∨ (ws.headD 0).extractLsb' 3 13 ≠ 0
      | .tmoden => auxField (ws.headD 0) ≠ 0 ∨ immField (ws.headD 0) ≠ 0
      | .tmodef => auxField (ws.headD 0) ≠ 0
      | .tsetcmp => False
      | .tquery => auxField (ws.headD 0) ≠ 0 ∨ immField (ws.headD 0) ≠ 0
      | .sinit => auxField (ws.headD 0) ≠ 0 ∨ highHalf (ws.getD 2 0) ≠ 0
      | .ssetpw => auxField (ws.headD 0) ≠ 0
      | .ssetang => auxField (ws.headD 0) ≠ 0 ∨ immField (ws.headD 0) ≠ 0
      | .ssetpos => auxField (ws.headD 0) ≠ 0 ∨ immField (ws.headD 0) ≠ 0
      | .squery => auxField (ws.headD 0) ≠ 0 ∨ immField (ws.headD 0) ≠ 0) →
    step s = .next { s with
      port := port, cbuf := [], csp := s.csp + ws.length
      status := if s.status.getLsbD 0 then s.status else 0x21 }

/-! ## Steps and command errors (spec/10_state.md, spec/60_exceptions.md) -/

/-- R36, R37, R118: when the word that arrives completes a command, the step is that command's `exec` in the state
with its words consumed, CBUF empty and CSP advanced by its length. -/
def Obligations.StepRunsDecodedCommand : Prop :=
  ∀ (s : State) (w : Word) (port : List Word) (i : Instr) (rest : List Word),
    s.port = w :: port → decode (s.cbuf ++ [w]) = .ok (i, rest) →
    step s = exec i { s with port := port, cbuf := [], csp := s.csp + (encode i).length }

/-- R37, R230, R281: no step stops the machine, and a step with no word on the port changes nothing. That the block
waits by a step to the same state is the model's form of it (notes/assumptions/7.md). -/
def Obligations.EveryStepAnswers : Prop :=
  (∀ s : State, ∃ s', step s = .next s') ∧ ∀ s : State, s.port = [] → step s = .next s

/-- R36, R118: CSP counts the words consumed: what a step takes from the port is in CBUF or has been counted. -/
def Obligations.PositionCountsWords : Prop :=
  ∀ s s' : State, CbufOk s → step s = .next s' →
    s'.csp + s'.cbuf.length + s'.port.length = s.csp + s.cbuf.length + s.port.length ∧
    s'.port = s.port.drop 1 ∧ (s.port ≠ [] → s'.csp = s.csp ∨ s'.cbuf = [])

/-- R231: a step that changes STATUS changes nothing else but what consuming the command's words changes; it found
ERR = 0 and leaves ERR = 1 with a code from 1 to 7. -/
def Obligations.ErrorHasNoOtherEffect : Prop :=
  ∀ s s' : State, CbufOk s → step s = .next s' → s'.status ≠ s.status →
    s.status.getLsbD 0 = false ∧
    (∃ code : BitVec 4, 1 ≤ code.toNat ∧ code.toNat ≤ 7 ∧ s'.status = code ++ (1 : BitVec 4)) ∧
    s' = { s with
      port := s.port.drop 1, cbuf := [], csp := s.csp + s.cbuf.length + 1, status := s'.status }

/-- R39, R231, R235: once ERR is 1, no step changes STATUS. -/
def Obligations.FirstErrorIsKept : Prop :=
  ∀ s s' : State, s.status.getLsbD 0 = true → step s = .next s' → s'.status = s.status

/-- R106, R107, R232, R233: which error a decoded command raises, in the order of the checks; the errors leave
everything but STATUS alone. A unit out of range is reported whatever the other operands are. -/
def Obligations.ErrorCausesAndPriority : Prop :=
  ∀ s : State,
    let raised (status : Byte) : Host.Outcome State Fault Refusal :=
      .next { s with status := if s.status.getLsbD 0 then s.status else status }
    (∀ i : Instr, i.unitFits s.platform = false → exec i s = raised 0x31) ∧
    (∀ (t : UnitNo) (p : BitVec 3), t.val < s.platform.numTimers → 5 ≤ p.toNat →
      exec (.tsetps t p) s = raised 0x41) ∧
    (∀ g : UnitNo, g.val < s.platform.numGenerators → (s.gen g).valid = false →
      (∀ pw, exec (.ssetpw g pw) s = raised 0x51) ∧ (∀ x, exec (.ssetang g x) s = raised 0x51) ∧
      (∀ x, exec (.ssetpos g x) s = raised 0x51) ∧ exec (.squery g) s = raised 0x51) ∧
    (∀ (g : UnitNo) (pin mn mx init : Half), g.val < s.platform.numGenerators →
      (s.platform.pinMap.lookup pin = none → exec (.sinit g pin mn mx init) s = raised 0x61) ∧
      (∀ (t : UnitNo) (ch : Channel), s.platform.pinMap.lookup pin = some (t, ch) →
        ((s.cfg t).fclk < 50 ∨ (3276850 ≤ (s.cfg t).fclk ∧ (s.cfg t).fclk < 8000000) ∨
          209718400 ≤ (s.cfg t).fclk) →
        exec (.sinit g pin mn mx init) s = raised 0x71))

/-- R40: RESULT is written only by TQUERY, SSETPW, SSETANG, SSETPOS (value 1) and SQUERY, and by a command that
raises no error: the command is decoded, it fits the platform and its slot is constructed. Nothing the host does
writes it, and its reset value is 0. -/
def Obligations.ResultRegisterWriters : Prop :=
  (∀ (i : Instr) (s s' : State), exec i s = .next s' → s'.result ≠ s.result →
    s'.status = s.status ∧ i.fits s.platform = true ∧
    match i with
    | .tquery _ => True
    | .squery g => (s.gen g).valid = true
    | .ssetpw g _ => s'.result = 1 ∧ (s.gen g).valid = true
    | .ssetang g _ => s'.result = 1 ∧ (s.gen g).valid = true
    | .ssetpos g _ => s'.result = 1 ∧ (s.gen g).valid = true
    | .tsetps _ _ => False
    | .tmoden _ => False
    | .tmodef _ _ => False
    | .tsetcmp _ _ _ _ => False
    | .sinit _ _ _ _ _ => False) ∧
  (∀ s s' : State, step s = .next s' → s'.result ≠ s.result →
    ∃ w port i rest, s.port = w :: port ∧ decode (s.cbuf ++ [w]) = .ok (i, rest)) ∧
  (∀ (s : State) (w : Word) (v : Bool), (hostWrite w s).result = s.result ∧ (hostSetIE v s).result = s.result) ∧
  State.reset.result = 0 ∧ ∀ s : State, (blockReset s).result = 0

/-! ## Reset (spec/70_reset_and_hazards.md) -/

/-- R260, R261, R263: a reset in any state sets the block's state to the values of R64, discards a partial command,
writes nothing and leaves IE alone. -/
def Obligations.ResetSetsBlockState : Prop :=
  ∀ s : State,
    let r := blockReset s
    r.csp = 0 ∧ r.cbuf = [] ∧ r.status = 0x00 ∧ r.result = 0 ∧
    (∀ t : UnitNo, (r.timer t).shadow = { wgm := 0, cs := 0, comA := 0, comB := 0, comC := 0 } ∧
      (r.timer t).psStaged = .none ∧ (r.timer t).mode = .unconfigured ∧ (r.timer t).psApplied = .none ∧
      (r.timer t).top = 0) ∧
    (∀ g : UnitNo, (r.gen g).valid = false) ∧
    r.trace = s.trace ∧ r.ie = s.ie ∧ r.platform = s.platform

/-- R64: the reset state of the model holds the values of R64 in the block's fields and meets the invariant of the
whole machine. The platform, IE and the unspecified generator fields in it are the model's choice
(notes/assumptions/2.md, 4.md, 5.md). -/
def Obligations.ResetStateMeetsInvariant : Prop :=
  blockReset State.reset = State.reset ∧ Inv State.reset

/-! ## Timer commands (spec/40_timer.md) -/

/-- R41, R141, R142: TSETPS stages the prescaler of its code, 0 NONE, 1 DIV8, 2 DIV64, 3 DIV256, 4 DIV1024, and
changes nothing else. -/
def Obligations.TsetpsStagesPrescaler : Prop :=
  ∀ (s : State) (t : UnitNo) (ps : Prescaler), t.val < s.platform.numTimers →
    let code : BitVec 3 := match ps with
      | .none => 0
      | .div8 => 1
      | .div64 => 2
      | .div256 => 3
      | .div1024 => 4
    exec (.tsetps t code) s =
      .next { s with timers := s.timers.set t.val { s.timer t with psStaged := ps } }

/-- R143–R145: TMODEN commits the staged prescaler in normal mode, disconnects every channel, resets the counter,
and caches mode, prescaler and TOP = 0; the events stand in one critical section. COM of an absent channel C stays 0
(the model's reading, notes/assumptions/15.md). -/
def Obligations.TmodenSetsNormalMode : Prop :=
  ∀ (s : State) (t : UnitNo), t.val < s.platform.numTimers →
    let l := s.platform.layout
    let c := s.cfg t
    let p := (s.timer t).psStaged
    let cs := match p with
      | .none => c.csTable.none
      | .div8 => c.csTable.div8
      | .div64 => c.csTable.div64
      | .div256 => c.csTable.div256
      | .div1024 => c.csTable.div1024
    let sh : Shadow :=
      { wgm := 0, cs := cs, comA := l.comOff, comB := l.comOff
        comC := if c.is16 = true ∧ c.nch = .three then l.comOff else 0 }
    exec (.tmoden t) s = .next { s with
      timers := s.timers.set t.val
        { shadow := sh, psStaged := p, mode := .normal, psApplied := p, top := 0 }
      trace := s.trace ++ [.ie false] ++ commitEvents l c t sh ++
        [.write t .cnt (if c.is16 then .half 0 else .byte 0), .ie s.ie] }

/-- R143, R144, R149, R150: TMODEF commits the staged prescaler in fast-PWM mode; ICR receives TOP first on a 16-bit
timer and is not written on an 8-bit timer, where TOP is recorded all the same. COM of an absent channel C stays 0
(the model's reading, notes/assumptions/15.md). -/
def Obligations.TmodefSetsFastPwm : Prop :=
  ∀ (s : State) (t : UnitNo) (top : Half), t.val < s.platform.numTimers →
    let l := s.platform.layout
    let c := s.cfg t
    let p := (s.timer t).psStaged
    let cs := match p with
      | .none => c.csTable.none
      | .div8 => c.csTable.div8
      | .div64 => c.csTable.div64
      | .div256 => c.csTable.div256
      | .div1024 => c.csTable.div1024
    let sh : Shadow :=
      { wgm := if c.is16 then l.wgmFast16 else l.wgmFast8.setWidth 4
        cs := cs, comA := l.comOff, comB := l.comOff
        comC := if c.is16 = true ∧ c.nch = .three then l.comOff else 0 }
    exec (.tmodef t top) s = .next { s with
      timers := s.timers.set t.val
        { shadow := sh, psStaged := p, mode := .fastPwm, psApplied := p, top := top }
      trace := s.trace ++ [.ie false] ++ (if c.is16 then [.write t .icr (.half top)] else []) ++
        commitEvents l c t sh ++ [.write t .cnt (if c.is16 then .half 0 else .byte 0), .ie s.ie] }

/-- R155–R159: TSETCMP writes the compare register and the COM field of each requested present channel, A, B, C in
order, then commits the shadow, in one critical section. Every mask, polarity and value is covered. -/
def Obligations.TsetcmpWritesCompare : Prop :=
  ∀ (s : State) (t : UnitNo) (mask : BitVec 3) (inv : Bool) (value : Half), t.val < s.platform.numTimers →
    let l := s.platform.layout
    let c := s.cfg t
    let sh := (s.timer t).shadow
    let com := if inv then l.comSet else l.comClear
    let hasC := mask.getLsbD 2 && c.is16 && decide (c.nch = .three)
    let v : RegValue := if c.is16 then .half value else .byte (value.extractLsb' 0 8)
    let sh' : Shadow :=
      { sh with
        comA := if mask.getLsbD 0 then com else sh.comA
        comB := if mask.getLsbD 1 then com else sh.comB
        comC := if hasC then com else sh.comC }
    exec (.tsetcmp t mask inv value) s = .next { s with
      timers := s.timers.set t.val { s.timer t with shadow := sh' }
      trace := s.trace ++ [.ie false] ++ (if mask.getLsbD 0 then [.write t .ocrA v] else []) ++
        (if mask.getLsbD 1 then [.write t .ocrB v] else []) ++ (if hasC then [.write t .ocrC v] else []) ++
        commitEvents l c t sh' ++ [.ie s.ie] }

/-- R41, R47, R170: TQUERY changes RESULT alone, to MODE in bits 25:24, PS_STAGED in 22:20, PS_APPLIED in 18:16, TOP
in 15:0 and 0 elsewhere. -/
def Obligations.TqueryReportsConfiguration : Prop :=
  ∀ (s : State) (t : UnitNo), t.val < s.platform.numTimers →
    let r := s.timer t
    let code (p : Prescaler) : BitVec 3 := match p with
      | .none => 0
      | .div8 => 1
      | .div64 => 2
      | .div256 => 3
      | .div1024 => 4
    ∃ v : Word, exec (.tquery t) s = .next { s with result := v } ∧
      v.extractLsb' 24 2 = (match r.mode with | .unconfigured => 0 | .normal => 1 | .fastPwm => 2) ∧
      v.extractLsb' 20 3 = code r.psStaged ∧ v.extractLsb' 16 3 = code r.psApplied ∧
      v.extractLsb' 0 16 = r.top ∧ v.extractLsb' 26 6 = 0 ∧ v.getLsbD 23 = false ∧ v.getLsbD 19 = false

/-- R135: the control bytes composed from the shadow under the default layout, for every timer width, channel count
and shadow. -/
def Obligations.DefaultLayoutComposition : Prop :=
  ∀ (c : TimerCfg) (sh : Shadow),
    let hasC := c.is16 && decide (c.nch = .three)
    composeA layoutDefault c sh =
      sh.comA ++ sh.comB ++ (if hasC then sh.comC else (0 : BitVec 2)) ++ sh.wgm.extractLsb' 0 2 ∧
    composeB layoutDefault c sh =
      (if c.is16 then (0 : BitVec 3) ++ sh.wgm.extractLsb' 2 2 ++ sh.cs
        else (0 : BitVec 4) ++ sh.wgm.extractLsb' 2 1 ++ sh.cs) ∧
    composeC layoutDefault c sh = 0x00

/-- R160: a mask bit naming a channel the timer lacks is ignored: the command does what it does without that bit, and
raises nothing. Channel C is the only one a timer can lack. -/
def Obligations.AbsentChannelIgnored : Prop :=
  ∀ (s : State) (t : UnitNo) (mask : BitVec 3) (inv : Bool) (value : Half),
    t.val < s.platform.numTimers → ¬ ((s.cfg t).is16 = true ∧ (s.cfg t).nch = .three) →
    ∃ s' evs, exec (.tsetcmp t mask inv value) s = .next s' ∧
      exec (.tsetcmp t (mask &&& 0b011) inv value) s = .next s' ∧ s'.status = s.status ∧
      (s'.timer t).shadow.comC = (s.timer t).shadow.comC ∧
      s'.trace = s.trace ++ evs ∧ ∀ v, Event.write t .ocrC v ∉ evs

/-- R161: when no requested channel is present, TSETCMP still runs its critical section and commits the unchanged
control bytes; nothing else happens. -/
def Obligations.EmptyMaskStillCommits : Prop :=
  ∀ (s : State) (t : UnitNo) (mask : BitVec 3) (inv : Bool) (value : Half), t.val < s.platform.numTimers →
    (mask = 0 ∨ (mask = 0b100 ∧ ¬ ((s.cfg t).is16 = true ∧ (s.cfg t).nch = .three))) →
    exec (.tsetcmp t mask inv value) s = .next { s with
      trace := s.trace ++ [.ie false] ++ commitEvents s.platform.layout (s.cfg t) t (s.timer t).shadow ++
        [.ie s.ie] }

/-- R162: TSETCMP does not depend on the staged prescaler: staging another one before it or after it is the same. The
clock select it commits is the shadow's, which it does not change; it writes neither CNT nor ICR and changes no part
of the configuration cache. -/
def Obligations.StagedPrescalerInertForCompare : Prop :=
  ∀ (s : State) (t : UnitNo) (mask : BitVec 3) (inv : Bool) (value : Half) (ps : Prescaler),
    t.val < s.platform.numTimers →
    let staged (s : State) : State := { s with timers := s.timers.set t.val { s.timer t with psStaged := ps } }
    ∃ s' evs, exec (.tsetcmp t mask inv value) s = .next s' ∧
      exec (.tsetcmp t mask inv value) (staged s) = .next (staged s') ∧
      s'.trace = s.trace ++ evs ∧ (∀ v, Event.write t .cnt v ∉ evs ∧ Event.write t .icr v ∉ evs) ∧
      Event.write t .ctrlB (.byte (composeB s.platform.layout (s.cfg t) (s'.timer t).shadow)) ∈ evs ∧
      (s'.timer t).shadow.cs = (s.timer t).shadow.cs ∧ (s'.timer t).mode = (s.timer t).mode ∧
      (s'.timer t).psApplied = (s.timer t).psApplied ∧ (s'.timer t).top = (s.timer t).top

/-- R46–R49: MODE, PS_APPLIED and TOP of a timer change only by a mode-set of that timer, PS_STAGED only by a
TSETPS, each a command of its own or part of an SINIT on a pin of that timer. -/
def Obligations.ConfigurationWriters : Prop :=
  ∀ (i : Instr) (s s' : State) (t : UnitNo), exec i s = .next s' →
    ((s'.timer t).mode ≠ (s.timer t).mode ∨ (s'.timer t).psApplied ≠ (s.timer t).psApplied ∨
        (s'.timer t).top ≠ (s.timer t).top →
      i = .tmoden t ∨ (∃ top, i = .tmodef t top) ∨
        ∃ g pin mn mx init ch, i = .sinit g pin mn mx init ∧ s.platform.pinMap.lookup pin = some (t, ch)) ∧
    ((s'.timer t).psStaged ≠ (s.timer t).psStaged →
      (∃ p, i = .tsetps t p) ∨
        ∃ g pin mn mx init ch, i = .sinit g pin mn mx init ∧ s.platform.pinMap.lookup pin = some (t, ch))

/-- Frame of the timer commands (R141, R145, R149, R155, R170): outside the named timer's record, the trace (which
only grows), STATUS (on an error) and RESULT (TQUERY), nothing changes. -/
def Obligations.TimerCommandFrame : Prop :=
  ∀ (i : Instr) (t : UnitNo) (s s' : State),
    ((∃ p, i = .tsetps t p) ∨ i = .tmoden t ∨ (∃ top, i = .tmodef t top) ∨
      (∃ mask inv v, i = .tsetcmp t mask inv v) ∨ i = .tquery t) →
    exec i s = .next s' →
    s' = { s with
      timers := s.timers.set t.val (s'.timer t), trace := s'.trace, status := s'.status, result := s'.result } ∧
    (∃ evs, s'.trace = s.trace ++ evs) ∧
    (i.fits s.platform = true → s'.status = s.status) ∧
    (i.fits s.platform = false → s' = { s with status := s'.status }) ∧
    (i ≠ .tquery t → s'.result = s.result)

/-! ## Interrupts and register writes (spec/20_memory.md, spec/40_timer.md) -/

/-- R137: no step changes IE, and the block writes IE <- 1 only if IE was 1 before the command. -/
def Obligations.InterruptEnableRestored : Prop :=
  ∀ s s' : State, step s = .next s' →
    s'.ie = s.ie ∧ ∃ evs, s'.trace = s.trace ++ evs ∧ (Event.ie true ∈ evs → s.ie = true)

/-- R82, R136: what a step adds to the trace is a sequence of whole critical sections, each beginning with IE(0) and
restoring IE, with pin requests between them; every register write stands inside a section. -/
def Obligations.WritesOnlyInCriticalSections : Prop :=
  ∀ s s' : State, step s = .next s' →
    ∃ evs, s'.trace = s.trace ++ evs ∧ sectioned s.ie false evs = true

/-- R72, R74: every register write is of a register the timer has, at that register's width; and on a well-formed
platform with its generators bound as constructed it goes to a timer that exists. -/
def Obligations.RegisterWritesFitTimer : Prop :=
  ∀ s s' : State, step s = .next s' →
    ∃ evs, s'.trace = s.trace ++ evs ∧ (∀ e ∈ evs, legalWrite s.platform e = true) ∧
      (PlatformOk s.platform → GensOk s →
        ∀ t r v, Event.write t r v ∈ evs → t.val < s.platform.numTimers)

/-- R281: how many events TMODEN, TMODEF, TSETCMP and SSETPW add to the trace, on 16-bit and 8-bit timers. -/
def Obligations.EventCounts : Prop :=
  ∀ s : State,
    let wide (t : UnitNo) (a b : Nat) : Nat := if (s.cfg t).is16 then a else b
    let count (t : UnitNo) (ch : Channel) : Nat := if chanPresent (s.cfg t) ch then 1 else 0
    (∀ t : UnitNo, t.val < s.platform.numTimers →
      (∃ s', exec (.tmoden t) s = .next s' ∧ s'.trace.length = s.trace.length + wide t 6 5) ∧
      (∀ top, ∃ s', exec (.tmodef t top) s = .next s' ∧ s'.trace.length = s.trace.length + wide t 7 5) ∧
      (∀ mask inv v, ∃ s', exec (.tsetcmp t mask inv v) s = .next s' ∧
        s'.trace.length = s.trace.length + wide t 5 4 + (if mask.getLsbD 0 then count t .A else 0) +
          (if mask.getLsbD 1 then count t .B else 0) + (if mask.getLsbD 2 then count t .C else 0))) ∧
    (∀ (g : UnitNo) (pw : Half), g.val < s.platform.numGenerators → (s.gen g).valid = true →
      ∃ s', exec (.ssetpw g pw) s = .next s' ∧
        s'.trace.length = s.trace.length + wide (s.gen g).timer 5 4 + count (s.gen g).timer (s.gen g).ch)

/-! ## Arithmetic of the converter (spec/00_scope.md, spec/41_pulse.md) -/

/-- R21: `rnd(a/b)` is the nearest integer, halves away from zero, for every integer `a` and positive `b`. -/
def Obligations.RoundingHalvesAway : Prop :=
  ∀ (a : Int) (b : Nat), 0 < b →
    (0 ≤ a → rnd a b = ⌊(a : ℚ) / b + 1 / 2⌋ ∧ rnd a b = (2 * a + b) / (2 * b)) ∧
    (a < 0 → rnd a b = -⌊-((a : ℚ) / b) + 1 / 2⌋)

/-- R23 with the value rules of IEEE 754 (notes/assumptions/13.md): a binary32 pattern is an exact rational, an
infinity or NaN. -/
def Obligations.Binary32Value : Prop :=
  ∀ w : Word,
    let e := (w.extractLsb' 23 8).toNat
    let f := (w.extractLsb' 0 23).toNat
    let sign : ℚ := if w.getLsbD 31 then -1 else 1
    (e = 255 → f ≠ 0 → f32 w = .nan) ∧
    (e = 255 → f = 0 → f32 w = if w.getLsbD 31 then .negInf else .posInf) ∧
    (e ≠ 255 → ∃ q, f32 w = .finite q ∧ 0 < q.den ∧
      (q.num : ℚ) / q.den =
        if e = 0 then sign * ((f : ℚ) / 2 ^ 23) * 2 ^ (-126 : ℤ)
        else sign * (1 + (f : ℚ) / 2 ^ 23) * 2 ^ ((e : ℤ) - 127))

/-- R182: the derived values of every pair of bounds an SINIT keeps, and their ranges. -/
def Obligations.DerivedValues : Prop :=
  ∀ mn mx : Half, mn.toNat < mx.toNat →
    (midUs mn mx).toNat = (mn.toNat + mx.toNat + 1) / 2 ∧
    (microsPerDegree mn mx).toNat = (mx.toNat - mn.toNat + 90) / 180 ∧
    (microsPerPercent mn mx).toNat = (mx.toNat - mn.toNat + 50) / 100 ∧
    (midUs mn mx).toNat ≤ 65535 ∧ (microsPerDegree mn mx).toNat ≤ 364 ∧ (microsPerPercent mn mx).toNat ≤ 655 ∧
    (mx.toNat - mn.toNat < 90 → microsPerDegree mn mx = 0) ∧
    (mx.toNat - mn.toNat < 50 → microsPerPercent mn mx = 0)

/-- R186, R187: the auto-tune selects by the ÷8 count, exclusively, and finds no legal tick count exactly for three
ranges of clocks. -/
def Obligations.AutoTuneSelection : Prop :=
  ∀ f : Nat,
    (autoTune f = none ↔ f < 50 ∨ (3276850 ≤ f ∧ f < 8000000) ∨ 209718400 ≤ f) ∧
    ∀ p n, autoTune f = some (p, n) →
      1 ≤ n ∧ n ≤ 0x10000 ∧
      (0xFFFF < f / 400 → p = .div64 ∧ n = f / 3200) ∧
      (f / 400 < 20000 → p = .none ∧ n = f / 50) ∧
      (20000 ≤ f / 400 → f / 400 ≤ 0xFFFF → p = .div8 ∧ n = f / 400)

/-- R209: for in-range angles the intermediate width lies in [-32760, 98295]. -/
def Obligations.AngleIntermediateRange : Prop :=
  ∀ (mn mx : Half) (q : Ratio), mn.toNat < mx.toNat → 0 < q.den →
    -90 * (q.den : Int) ≤ q.num → q.num ≤ 90 * (q.den : Int) →
    -32760 ≤ ((midUs mn mx).toNat : Int) + rnd (q.num * (microsPerDegree mn mx).toNat) q.den ∧
    ((midUs mn mx).toNat : Int) + rnd (q.num * (microsPerDegree mn mx).toNat) q.den ≤ 98295

/-! ## Generator commands (spec/41_pulse.md) -/

/-- R180–R183, R189, R193: an SINIT whose checks pass completes and constructs the slot; the first width is `init`
clamped to the bounds it kept. RESULT and STATUS are unchanged. -/
def Obligations.SinitConstructsGenerator : Prop :=
  ∀ (s : State) (g : UnitNo) (pin mn mx init : Half) (t : UnitNo) (ch : Channel) (p : Prescaler) (n : Nat),
    g.val < s.platform.numGenerators → s.platform.pinMap.lookup pin = some (t, ch) →
    autoTune (s.cfg t).fclk = some (p, n) →
    let lo : Half := if mx.toNat ≤ mn.toNat then 1000 else mn
    let hi : Half := if mx.toNat ≤ mn.toNat then 2000 else mx
    ∃ s', exec (.sinit g pin mn mx init) s = .next s' ∧
      (s'.gen g).valid = true ∧ (s'.gen g).pin = pin ∧ (s'.gen g).timer = t ∧ (s'.gen g).ch = ch ∧
      (s'.gen g).minUs = lo ∧ (s'.gen g).maxUs = hi ∧ (s'.gen g).mid = midUs lo hi ∧
      (s'.gen g).mpd = microsPerDegree lo hi ∧ (s'.gen g).mpp = microsPerPercent lo hi ∧
      (s'.gen g).n.toNat = n ∧ (s'.gen g).pw.toNat = max lo.toNat (min init.toNat hi.toNat) ∧
      (s'.timer t).mode = .fastPwm ∧ (s'.timer t).psApplied = p ∧ (s'.timer t).top.toNat = n - 1 ∧
      s'.result = s.result ∧ s'.status = s.status

/-- R183, R191–R193: an SINIT is the pin request, then TSETPS and TMODEF unless the applied configuration already
matches, then the first SSETPW without its success indicator. `made` is the state after construction and the pin
request. -/
def Obligations.SinitIsCommandSequence : Prop :=
  ∀ (s : State) (g : UnitNo) (pin mn mx init : Half) (t : UnitNo) (ch : Channel) (p : Prescaler) (n : Nat),
    g.val < s.platform.numGenerators → s.platform.pinMap.lookup pin = some (t, ch) →
    t.val < s.platform.numTimers → autoTune (s.cfg t).fclk = some (p, n) →
    let matched := (s.timer t).mode = .fastPwm ∧ (s.timer t).psApplied = p ∧ (s.timer t).top.toNat = n - 1
    let made : State := { s with
      gens := s.gens.set g.val (newGenerator pin mn mx t ch n (s.gen g).pw), trace := s.trace ++ [.pinOut pin] }
    ∃ staged moded written,
      exec (.tsetps t (psCode p)) made = .next staged ∧
      exec (.tmodef t (BitVec.ofNat 16 (n - 1))) staged = .next moded ∧
      (matched → exec (.ssetpw g init) made = .next written) ∧
      (¬ matched → exec (.ssetpw g init) moded = .next written) ∧
      exec (.sinit g pin mn mx init) s = .next { written with result := s.result }

/-- R150, R151, R190: after an SINIT the fast-PWM period of its timer is the auto-tune's N ticks on a 16-bit timer and
256 ticks on an 8-bit timer, whatever N is. -/
def Obligations.SinitPeriod : Prop :=
  ∀ (s : State) (g : UnitNo) (pin mn mx init : Half) (t : UnitNo) (ch : Channel) (p : Prescaler) (n : Nat),
    g.val < s.platform.numGenerators → s.platform.pinMap.lookup pin = some (t, ch) →
    autoTune (s.cfg t).fclk = some (p, n) →
    ∃ s', exec (.sinit g pin mn mx init) s = .next s' ∧ (s'.timer t).mode = .fastPwm ∧
      pwmPeriod (s'.cfg t) (s'.timer t).top = if (s.cfg t).is16 then n else 256

/-- R191, R194 and the idempotence property of spec/95_test_vectors.md section 1: an SINIT after an SINIT on the same
pin writes neither ICR nor CNT, whatever bounds and widths the two ask for. -/
def Obligations.RepeatedSinitKeepsTimer : Prop :=
  ∀ (s s₁ s₂ : State) (g g' : UnitNo) (pin mn mx init mn' mx' init' : Half),
    exec (.sinit g pin mn mx init) s = .next s₁ → s₁.status = s.status → s.status.getLsbD 0 = false →
    exec (.sinit g' pin mn' mx' init') s₁ = .next s₂ →
    ∃ evs, s₂.trace = s₁.trace ++ evs ∧
      ∀ t v, Event.write t .cnt v ∉ evs ∧ Event.write t .icr v ∉ evs

/-- R196–R201: SSETPW stores the clamped width, converts it to ticks, and is the TSETCMP of the generator's channel
with `inv = 0` and the ticks, an over-range count being written as the policy says; RESULT becomes 1. Of the value
written under ANY nothing is said; that `draws` then advances by one is the model's choice, no rule of the spec
(notes/assumptions/10.md). -/
def Obligations.SsetpwWritesPulse : Prop :=
  ∀ (s : State) (g : UnitNo) (x : Half),
    g.val < s.platform.numGenerators → (s.gen g).valid = true → (s.gen g).timer.val < s.platform.numTimers →
    let r := s.gen g
    let pw : Half :=
      if x.toNat < r.minUs.toNat then r.minUs else if r.maxUs.toNat < x.toNat then r.maxUs else x
    let ticks := (2 * r.n.toNat * pw.toNat + 20000) / 40000
    let drawn := 0xFFFF < ticks ∧ s.platform.overrange = .any
    ∃ (v : Half) (s' : State),
      (ticks ≤ 0xFFFF → v.toNat = ticks) ∧
      (0xFFFF < ticks → s.platform.overrange = .saturate → v = 0xFFFF) ∧
      exec (.tsetcmp r.timer (match r.ch with | .A => 0b001 | .B => 0b010 | .C => 0b100) false v)
        { s with
          gens := s.gens.set g.val { r with pw := pw }
          draws := if drawn then s.draws + 1 else s.draws } = .next s' ∧
      exec (.ssetpw g x) s = .next { s' with result := 1 }

/-- R199: above 0xFFFF ticks, for a width within the bounds and a channel that is present, the pulse write still
completes; SATURATE writes 0xFFFF, and ANY writes some u16. That this value is `Config.freeHalf` at `draws`, of which
nothing is known, and that `draws` advances by one are the model's choice, no rule of the spec
(notes/assumptions/10.md). `timerWide` reduces the value on an 8-bit timer (R159). A clamped width and an absent
channel are in `Obligations.SsetpwWritesPulse`. -/
def Obligations.OverrangeTicks : Prop :=
  ∀ (s : State) (g : UnitNo) (x : Half),
    g.val < s.platform.numGenerators → (s.gen g).valid = true →
    chanPresent (s.cfg (s.gen g).timer) (s.gen g).ch = true →
    (s.gen g).minUs.toNat ≤ x.toNat → x.toNat ≤ (s.gen g).maxUs.toNat →
    0xFFFF < (2 * (s.gen g).n.toNat * x.toNat + 20000) / 40000 →
    let t := (s.gen g).timer
    let wide (v : Half) : RegValue := timerWide (s.cfg t) v
    ∃ s', exec (.ssetpw g x) s = .next s' ∧ (s'.gen g).pw = x ∧ s'.result = 1 ∧
      match s.platform.overrange with
      | .saturate => lastWrite t (ocrReg (s.gen g).ch) s'.trace = some (wide 0xFFFF) ∧ s'.draws = s.draws
      | .any => lastWrite t (ocrReg (s.gen g).ch) s'.trace = some (wide (Config.freeHalf s.draws)) ∧
          s'.draws = s.draws + 1

/-- R204–R209: SSETANG of a number or an infinity is the SSETPW of the width the angle asks for: MIN below -90, MAX
above +90, and the clamped `MID + rnd(d * MPD)` from -90 to +90, endpoints included. -/
def Obligations.SsetangWritesPulse : Prop :=
  ∀ (s : State) (g : UnitNo) (x : Word),
    g.val < s.platform.numGenerators → (s.gen g).valid = true →
    (s.gen g).minUs.toNat ≤ (s.gen g).maxUs.toNat →
    let r := s.gen g
    (f32 x = .negInf → ∃ s', exec (.ssetang g x) s = .next s' ∧ exec (.ssetpw g r.minUs) s = .next s') ∧
    (f32 x = .posInf → ∃ s', exec (.ssetang g x) s = .next s' ∧ exec (.ssetpw g r.maxUs) s = .next s') ∧
    ∀ q, f32 x = .finite q →
      ∃ (pw : Half) (s' : State),
        (q.num < -90 * (q.den : Int) → pw = r.minUs) ∧
        (90 * (q.den : Int) < q.num → pw = r.maxUs) ∧
        (-90 * (q.den : Int) ≤ q.num → q.num ≤ 90 * (q.den : Int) →
          (pw.toNat : Int) =
            max (r.minUs.toNat : Int) (min (r.mid.toNat + rnd (q.num * r.mpd.toNat) q.den) r.maxUs.toNat)) ∧
        exec (.ssetang g x) s = .next s' ∧ exec (.ssetpw g pw) s = .next s' ∧
        (s'.gen g).pw = pw ∧ s'.result = 1

/-- R212–R214, R216: SSETPOS of a number or an infinity is the SSETPW of the width the percentage asks for: MIN below
0, MAX above 100, and the clamped absolute `rnd(q * MPP)` from 0 to 100, endpoints and -0.0 included. -/
def Obligations.SsetposWritesPulse : Prop :=
  ∀ (s : State) (g : UnitNo) (x : Word),
    g.val < s.platform.numGenerators → (s.gen g).valid = true →
    (s.gen g).minUs.toNat ≤ (s.gen g).maxUs.toNat →
    let r := s.gen g
    (f32 x = .negInf → ∃ s', exec (.ssetpos g x) s = .next s' ∧ exec (.ssetpw g r.minUs) s = .next s') ∧
    (f32 x = .posInf → ∃ s', exec (.ssetpos g x) s = .next s' ∧ exec (.ssetpw g r.maxUs) s = .next s') ∧
    ∀ q, f32 x = .finite q →
      ∃ (pw : Half) (s' : State),
        (q.num < 0 → pw = r.minUs) ∧
        (100 * (q.den : Int) < q.num → pw = r.maxUs) ∧
        (0 ≤ q.num → q.num ≤ 100 * (q.den : Int) →
          (pw.toNat : Int) =
            max (r.minUs.toNat : Int) (min (rnd (q.num * r.mpp.toNat) q.den) r.maxUs.toNat)) ∧
        exec (.ssetpos g x) s = .next s' ∧ exec (.ssetpw g pw) s = .next s' ∧
        (s'.gen g).pw = pw ∧ s'.result = 1

/-- R208, R216: a NaN angle completes with some width in [MIN, MAX], a NaN percentage with some width in [MIN, MAX];
nothing is said of which, nor that the two agree. Each command is the SSETPW of its width in the state with one free
value counted as drawn; that count is the model's own (notes/assumptions/10.md). -/
def Obligations.NanWidthIsBoundedDraw : Prop :=
  ∀ (s : State) (g : UnitNo) (x : Word),
    g.val < s.platform.numGenerators → (s.gen g).valid = true →
    (s.gen g).minUs.toNat ≤ (s.gen g).maxUs.toNat → f32 x = .nan →
    (∃ (pw : Half) (s' : State),
      (s.gen g).minUs.toNat ≤ pw.toNat ∧ pw.toNat ≤ (s.gen g).maxUs.toNat ∧
      exec (.ssetang g x) s = .next s' ∧
      exec (.ssetpw g pw) { s with draws := s.draws + 1 } = .next s' ∧ (s'.gen g).pw = pw ∧ s'.result = 1) ∧
    ∃ (pw : Half) (s' : State),
      (s.gen g).minUs.toNat ≤ pw.toNat ∧ pw.toNat ≤ (s.gen g).maxUs.toNat ∧
      exec (.ssetpos g x) s = .next s' ∧
      exec (.ssetpw g pw) { s with draws := s.draws + 1 } = .next s' ∧ (s'.gen g).pw = pw ∧ s'.result = 1

/-- R215: which widths SSETPOS stores at 0, at 100, and when MPP is 0. The hypotheses on `q` say that the operand is
0, 100 or in range. -/
def Obligations.SsetposEndpoints : Prop :=
  ∀ (s : State) (g : UnitNo) (x : Word) (q : Ratio),
    g.val < s.platform.numGenerators → (s.gen g).valid = true →
    (s.gen g).minUs.toNat < (s.gen g).maxUs.toNat → f32 x = .finite q →
    let r := s.gen g
    ∃ s', exec (.ssetpos g x) s = .next s' ∧
      (q.num = 0 → (s'.gen g).pw = r.minUs) ∧
      (q.num = 100 * (q.den : Int) →
        (s'.gen g).pw.toNat = max r.minUs.toNat (min (100 * r.mpp.toNat) r.maxUs.toNat) ∧
        ((s'.gen g).pw = r.maxUs ↔ r.maxUs.toNat ≤ 100 * r.mpp.toNat)) ∧
      (r.mpp = 0 → 0 ≤ q.num → q.num ≤ 100 * (q.den : Int) → (s'.gen g).pw = r.minUs)

/-- R224: SQUERY changes RESULT alone, to the stored width. -/
def Obligations.SqueryReadsWidth : Prop :=
  ∀ (s : State) (g : UnitNo), g.val < s.platform.numGenerators → (s.gen g).valid = true →
    exec (.squery g) s = .next { s with result := (s.gen g).pw.setWidth 32 }

/-- R202: a repeated SSETPW produces an identical trace and leaves the records as they are. Where the tick count of
the width written is over range and the policy is ANY, R199 makes the value a draw, so the claim is made for the other
cases (notes/assumptions/22.md). -/
def Obligations.RepeatedWidthWriteIsIdentical : Prop :=
  ∀ (s s₁ s₂ : State) (g : UnitNo) (x : Half),
    let r := s.gen g
    let pw : Half :=
      if x.toNat < r.minUs.toNat then r.minUs else if r.maxUs.toNat < x.toNat then r.maxUs else x
    (s.platform.overrange = .saturate ∨ (2 * r.n.toNat * pw.toNat + 20000) / 40000 ≤ 0xFFFF) →
    exec (.ssetpw g x) s = .next s₁ → exec (.ssetpw g x) s₁ = .next s₂ →
    ∃ evs, s₁.trace = s.trace ++ evs ∧ s₂.trace = s₁.trace ++ evs ∧ s₂.timers = s₁.timers ∧ s₂.gens = s₁.gens

/-- R58, R195: MIN, MAX, MID, MPD, MPP, N, the pin and the binding of a slot change only by an SINIT on that slot,
and so does VALID. -/
def Obligations.GeneratorFieldsFrozen : Prop :=
  ∀ (i : Instr) (s s' : State) (g : UnitNo), exec i s = .next s' →
    (∀ pin mn mx init, i ≠ .sinit g pin mn mx init) →
    s'.gen g = { s.gen g with pw := (s'.gen g).pw }

/-- Frame of SSETPW, SSETANG, SSETPOS and SQUERY (R196, R204, R212, R224, R40): only the slot's width, the COM field
of the generator's channel, the trace, STATUS on an error, RESULT and the draw counter may change; the host's words,
CSP, CBUF, IE and the parameters do not. -/
def Obligations.GeneratorCommandFrame : Prop :=
  ∀ (i : Instr) (g : UnitNo) (s s' : State),
    ((∃ pw, i = .ssetpw g pw) ∨ (∃ x, i = .ssetang g x) ∨ (∃ x, i = .ssetpos g x) ∨ i = .squery g) →
    exec i s = .next s' →
    let t := (s.gen g).timer
    (∃ com : BitVec 2, s' = { s with
      gens := s.gens.set g.val { s.gen g with pw := (s'.gen g).pw }
      timers := s.timers.set t.val
        { s.timer t with shadow := setShadowCom (s.gen g).ch com (s.timer t).shadow }
      trace := s'.trace, status := s'.status, result := s'.result, draws := s'.draws }) ∧
    (∃ evs, s'.trace = s.trace ++ evs) ∧
    (i = .squery g → s'.trace = s.trace ∧ s'.timers = s.timers ∧ s'.gens = s.gens ∧ s'.draws = s.draws) ∧
    (i.fits s.platform = true → (s.gen g).valid = true → s'.status = s.status)

/-- Frame of SINIT (R180, R194, R40): only the slot's record, the record of the pin's timer, the trace, STATUS on an
error and the draw counter may change; an SINIT that raises changes STATUS alone. -/
def Obligations.SinitFrame : Prop :=
  ∀ (s s' : State) (g : UnitNo) (pin mn mx init : Half), exec (.sinit g pin mn mx init) s = .next s' →
    (s'.status ≠ s.status → s' = { s with status := s'.status }) ∧
    (∃ evs, s'.trace = s.trace ++ evs) ∧
    (∀ t ch, s.platform.pinMap.lookup pin = some (t, ch) →
      s' = { s with
        gens := s.gens.set g.val (s'.gen g), timers := s.timers.set t.val (s'.timer t)
        trace := s'.trace, status := s'.status, draws := s'.draws })

/-! ## Invariants every step keeps -/

/-- R37, R39, R62, R232: a step keeps CBUF shorter than its command, STATUS one of its legal values, and the
parameters as they are. -/
def Obligations.StepKeepsInterfaceState : Prop :=
  ∀ s s' : State, CbufOk s → StatusOk s → step s = .next s' →
    CbufOk s' ∧ s'.cbuf.length ≤ 2 ∧ StatusOk s' ∧ s'.platform = s.platform

/-- R42–R49: a step keeps every timer's shadow in agreement with its configuration cache and its COM fields legal;
`COM[C]` of an absent channel stays 0 (the model's reading, notes/assumptions/15.md). -/
def Obligations.StepKeepsTimerRecords : Prop :=
  ∀ s s' : State, TimersOk s → step s = .next s' → TimersOk s'

/-- R50–R58, R181, R186: a step keeps the generator invariant of every slot, among it MIN < MAX and MIN ≤ PW ≤ MAX. -/
def Obligations.StepKeepsGenerators : Prop :=
  ∀ s s' : State, GensOk s → step s = .next s' → GensOk s'

/-- R42, R49, R59, R138, R140: a step keeps the control registers A, B and, on a 16-bit timer, C as last written equal
to what the shadow composes, C unwritten on an 8-bit timer, and ICR equal to the cached TOP of a 16-bit timer in
fast-PWM mode. -/
def Obligations.StepKeepsPeripheralMirror : Prop :=
  ∀ s s' : State, MirrorOk s → step s = .next s' → MirrorOk s'
end

