-- ==== Sys2Proof/Laws/Decode.lean ====
section
/-! SUPPORT. The decoder's cases and the fields of an encoded header. -/

namespace Sys2Proof

/-! ## Fields of a header word (R101) -/

@[simp] theorem opField_headerWord (op : Opcode) (u : UnitNo) (a : BitVec 4) (m : Half) :
    opField (headerWord op u a m) = opcodeByte op := by
  ext i hi
  simp only [opField, headerWord, BitVec.getElem_extractLsb', BitVec.getLsbD_append]
  simp [show ¬ 24 + i < 16 by omega, show ¬ 24 + i - 16 < 4 by omega, show ¬ 24 + i - 16 - 4 < 4 by omega,
    show 24 + i - 16 - 4 - 4 = i by omega, hi]

@[simp] theorem unitField_headerWord (op : Opcode) (u : UnitNo) (a : BitVec 4) (m : Half) :
    unitField (headerWord op u a m) = u := by
  have h : (headerWord op u a m).extractLsb' 20 4 = BitVec.ofFin u := by
    ext i hi
    simp only [headerWord, BitVec.getElem_extractLsb', BitVec.getLsbD_append]
    simp [show ¬ 20 + i < 16 by omega, show ¬ 20 + i - 16 < 4 by omega,
      show 20 + i - 16 - 4 = i by omega, hi, BitVec.getLsbD_eq_getElem]
  simp [unitField, h]

@[simp] theorem auxField_headerWord (op : Opcode) (u : UnitNo) (a : BitVec 4) (m : Half) :
    auxField (headerWord op u a m) = a := by
  ext i hi
  simp only [auxField, headerWord, BitVec.getElem_extractLsb', BitVec.getLsbD_append]
  simp [show ¬ 16 + i < 16 by omega, hi, BitVec.getLsbD_eq_getElem]

@[simp] theorem immField_headerWord (op : Opcode) (u : UnitNo) (a : BitVec 4) (m : Half) :
    immField (headerWord op u a m) = m := by
  ext i hi
  simp only [immField, headerWord, BitVec.getElem_extractLsb', BitVec.getLsbD_append]
  simp [hi, BitVec.getLsbD_eq_getElem]

/-- A header word is put together from its fields. -/
theorem headerWord_fields (h : Word) (op : Opcode) (ho : opField h = opcodeByte op) :
    headerWord op (unitField h) (auxField h) (immField h) = h := by
  apply BitVec.eq_of_getLsbD_eq
  intro i hi
  simp only [headerWord, ← ho, unitField, auxField, immField, opField, BitVec.getLsbD_append, BitVec.ofFin_toFin,
    BitVec.getLsbD_extractLsb']
  by_cases h16 : i < 16
  · simp [h16]
  · by_cases h20 : i - 16 < 4
    · simp [h16, h20, show 16 + (i - 16) = i by omega]
    · by_cases h24 : i - 16 - 4 < 4
      · simp [h16, h20, h24, show 20 + (i - 16 - 4) = i by omega]
      · simp [h16, h20, h24, show 24 + (i - 16 - 4 - 4) = i by omega, show i - 16 - 4 - 4 < 8 by omega]

/-! ## Bits of encoded words (R101, R102) -/

/-- The bits of a header word, field by field. -/
theorem headerWord_bit (op : Opcode) (u : UnitNo) (a : BitVec 4) (m : Half) (i : Nat) :
    (headerWord op u a m).getLsbD i =
      if i < 16 then m.getLsbD i else if i < 20 then a.getLsbD (i - 16)
      else if i < 24 then (BitVec.ofFin u : BitVec 4).getLsbD (i - 20) else (opcodeByte op).getLsbD (i - 24) := by
  simp only [headerWord, BitVec.getLsbD_append]
  by_cases h1 : i < 16
  · simp [h1]
  · by_cases h2 : i < 20
    · simp [h1, h2, show i - 16 < 4 by omega]
    · by_cases h3 : i < 24
      · simp [h1, h2, h3, show ¬ i - 16 < 4 by omega, show i - 16 - 4 = i - 20 by omega,
          show i - 20 < 4 by omega]
      · simp [h1, h2, h3, show ¬ i - 16 < 4 by omega, show ¬ i - 16 - 4 < 4 by omega,
          show i - 16 - 4 - 4 = i - 24 by omega]

/-- A word has none of a mask's bits when each of those bits is 0. -/
theorem and_mask_eq_zero (a m : Word) (h : ∀ i < 32, m.getLsbD i = true → a.getLsbD i = false) : a &&& m = 0 := by
  apply BitVec.eq_of_getLsbD_eq
  intro i hi
  have := h i hi
  cases hm : m.getLsbD i <;> simp_all

/-- The low and the high half of a word put together from halves. -/
@[simp] theorem lowHalf_append (a b : Half) : lowHalf (a ++ b) = b := by
  apply BitVec.eq_of_getLsbD_eq
  intro i hi
  have := BitVec.getLsbD_append (x := a) (y := b) (i := i)
  rw [lowHalf, BitVec.getLsbD_extractLsb', Nat.zero_add]
  simpa [hi] using this

@[simp] theorem highHalf_append (a b : Half) : highHalf (a ++ b) = a := by
  apply BitVec.eq_of_getLsbD_eq
  intro i hi
  have := BitVec.getLsbD_append (x := a) (y := b) (i := 16 + i)
  rw [highHalf, BitVec.getLsbD_extractLsb']
  simpa [hi] using this

/-! ## The opcode map (R114, R115) -/

@[simp] theorem opcodeOf_opcodeByte (op : Opcode) : opcodeOf (opcodeByte op) = some op := by
  cases op <;> decide

/-- An opcode byte names a command only if it is that command's byte. -/
theorem opcodeOf_eq_some {b : Byte} {op : Opcode} (h : opcodeOf b = some op) : b = opcodeByte op := by
  unfold opcodeOf at h
  repeat' split at h
  all_goals first | (cases h; assumption) | cases h

/-- An opcode byte outside the map is one word long (R104, R115). -/
theorem opLen_of_opcodeOf_none {b : Byte} (h : opcodeOf b = none) : opLen b = 1 := by
  unfold opcodeOf at h
  unfold opLen
  split_ifs at h ⊢ <;> simp_all

/-! ## The cases of the decoder -/

/-- The decoder on at least one word, as one case analysis (R104, R113, R115). -/
theorem decode_cons (h : Word) (rest : List Word) :
    decode (h :: rest) =
      match opcodeOf (opField h) with
      | none => .error .illegalOpcode
      | some op =>
        if rest.length + 1 < opLen (opField h) then .error .incomplete
        else if reservedSet op h (rest.getD 1 0) then .error .reserved
        else .ok (instrOf op h (rest.getD 0 0) (rest.getD 1 0), rest.drop (opLen (opField h) - 1)) := rfl

/-- What a decoded command is made of (R104, R113). -/
theorem decode_ok {ws rest : List Word} {i : Instr} (h : decode ws = .ok (i, rest)) :
    ∃ hd tl op, ws = hd :: tl ∧ opField hd = opcodeByte op ∧ opLen (opcodeByte op) ≤ tl.length + 1 ∧
      reservedSet op hd (tl.getD 1 0) = false ∧ i = instrOf op hd (tl.getD 0 0) (tl.getD 1 0) ∧
      rest = tl.drop (opLen (opcodeByte op) - 1) := by
  cases ws with
  | nil => cases h
  | cons hd tl =>
    rw [decode_cons] at h
    cases ho : opcodeOf (opField hd) with
    | none => simp [ho] at h
    | some op =>
      have hb := opcodeOf_eq_some ho
      simp only [ho] at h
      split at h
      · cases h
      · split at h
        · cases h
        · cases h
          exact ⟨hd, tl, op, rfl, hb, by rw [← hb]; omega, Bool.eq_false_iff.mpr ‹_›, rfl, by rw [hb]⟩

/-- Words are an incomplete command exactly when they are fewer than its length (R104). -/
theorem decode_incomplete (hd : Word) (tl : List Word) :
    decode (hd :: tl) = .error .incomplete ↔ tl.length + 1 < opLen (opField hd) := by
  rw [decode_cons]
  cases ho : opcodeOf (opField hd) with
  | none => simp [opLen_of_opcodeOf_none ho]
  | some op =>
    dsimp only
    by_cases hl : tl.length + 1 < opLen (opField hd)
    · simp [hl]
    · rw [if_neg hl]
      split <;> simp [hl]

end Sys2Proof
end

