-- ==== Sys2Proof/Laws/State.lean ====
section
/-! SUPPORT. What each update of the state does to each field: one lemma per field per update, and the laws of the
timer and generator records. -/

namespace Sys2Proof.Machine

variable (s : State)

/-! ## emit -/

@[simp] theorem emit_platform (e : Event) : (emit e s).platform = s.platform := rfl
@[simp] theorem emit_port (e : Event) : (emit e s).port = s.port := rfl
@[simp] theorem emit_csp (e : Event) : (emit e s).csp = s.csp := rfl
@[simp] theorem emit_cbuf (e : Event) : (emit e s).cbuf = s.cbuf := rfl
@[simp] theorem emit_ie (e : Event) : (emit e s).ie = s.ie := rfl
@[simp] theorem emit_status (e : Event) : (emit e s).status = s.status := rfl
@[simp] theorem emit_result (e : Event) : (emit e s).result = s.result := rfl
@[simp] theorem emit_timers (e : Event) : (emit e s).timers = s.timers := rfl
@[simp] theorem emit_gens (e : Event) : (emit e s).gens = s.gens := rfl
@[simp] theorem emit_trace (e : Event) : (emit e s).trace = s.trace ++ [e] := rfl
@[simp] theorem emit_draws (e : Event) : (emit e s).draws = s.draws := rfl

/-! ## setIE -/

@[simp] theorem setIE_platform (v : Bool) : (setIE v s).platform = s.platform := rfl
@[simp] theorem setIE_port (v : Bool) : (setIE v s).port = s.port := rfl
@[simp] theorem setIE_csp (v : Bool) : (setIE v s).csp = s.csp := rfl
@[simp] theorem setIE_cbuf (v : Bool) : (setIE v s).cbuf = s.cbuf := rfl
@[simp] theorem setIE_ie (v : Bool) : (setIE v s).ie = v := rfl
@[simp] theorem setIE_status (v : Bool) : (setIE v s).status = s.status := rfl
@[simp] theorem setIE_result (v : Bool) : (setIE v s).result = s.result := rfl
@[simp] theorem setIE_timers (v : Bool) : (setIE v s).timers = s.timers := rfl
@[simp] theorem setIE_gens (v : Bool) : (setIE v s).gens = s.gens := rfl
@[simp] theorem setIE_trace (v : Bool) : (setIE v s).trace = s.trace ++ [.ie v] := rfl
@[simp] theorem setIE_draws (v : Bool) : (setIE v s).draws = s.draws := rfl

/-! ## memWrite -/

@[simp] theorem memWrite_platform (t : UnitNo) (r : RegName) (v : RegValue) : (memWrite t r v s).platform = s.platform := rfl
@[simp] theorem memWrite_port (t : UnitNo) (r : RegName) (v : RegValue) : (memWrite t r v s).port = s.port := rfl
@[simp] theorem memWrite_csp (t : UnitNo) (r : RegName) (v : RegValue) : (memWrite t r v s).csp = s.csp := rfl
@[simp] theorem memWrite_cbuf (t : UnitNo) (r : RegName) (v : RegValue) : (memWrite t r v s).cbuf = s.cbuf := rfl
@[simp] theorem memWrite_ie (t : UnitNo) (r : RegName) (v : RegValue) : (memWrite t r v s).ie = s.ie := rfl
@[simp] theorem memWrite_status (t : UnitNo) (r : RegName) (v : RegValue) : (memWrite t r v s).status = s.status := rfl
@[simp] theorem memWrite_result (t : UnitNo) (r : RegName) (v : RegValue) : (memWrite t r v s).result = s.result := rfl
@[simp] theorem memWrite_timers (t : UnitNo) (r : RegName) (v : RegValue) : (memWrite t r v s).timers = s.timers := rfl
@[simp] theorem memWrite_gens (t : UnitNo) (r : RegName) (v : RegValue) : (memWrite t r v s).gens = s.gens := rfl
@[simp] theorem memWrite_trace (t : UnitNo) (r : RegName) (v : RegValue) : (memWrite t r v s).trace = s.trace ++ [.write t r v] := rfl
@[simp] theorem memWrite_draws (t : UnitNo) (r : RegName) (v : RegValue) : (memWrite t r v s).draws = s.draws := rfl

/-! ## setTimer -/

@[simp] theorem setTimer_platform (t : UnitNo) (r : TimerRec) : (setTimer t r s).platform = s.platform := rfl
@[simp] theorem setTimer_port (t : UnitNo) (r : TimerRec) : (setTimer t r s).port = s.port := rfl
@[simp] theorem setTimer_csp (t : UnitNo) (r : TimerRec) : (setTimer t r s).csp = s.csp := rfl
@[simp] theorem setTimer_cbuf (t : UnitNo) (r : TimerRec) : (setTimer t r s).cbuf = s.cbuf := rfl
@[simp] theorem setTimer_ie (t : UnitNo) (r : TimerRec) : (setTimer t r s).ie = s.ie := rfl
@[simp] theorem setTimer_status (t : UnitNo) (r : TimerRec) : (setTimer t r s).status = s.status := rfl
@[simp] theorem setTimer_result (t : UnitNo) (r : TimerRec) : (setTimer t r s).result = s.result := rfl
@[simp] theorem setTimer_timers (t : UnitNo) (r : TimerRec) : (setTimer t r s).timers = s.timers.set t.val r := rfl
@[simp] theorem setTimer_gens (t : UnitNo) (r : TimerRec) : (setTimer t r s).gens = s.gens := rfl
@[simp] theorem setTimer_trace (t : UnitNo) (r : TimerRec) : (setTimer t r s).trace = s.trace := rfl
@[simp] theorem setTimer_draws (t : UnitNo) (r : TimerRec) : (setTimer t r s).draws = s.draws := rfl

/-! ## setGen -/

@[simp] theorem setGen_platform (g : UnitNo) (r : GenRec) : (setGen g r s).platform = s.platform := rfl
@[simp] theorem setGen_port (g : UnitNo) (r : GenRec) : (setGen g r s).port = s.port := rfl
@[simp] theorem setGen_csp (g : UnitNo) (r : GenRec) : (setGen g r s).csp = s.csp := rfl
@[simp] theorem setGen_cbuf (g : UnitNo) (r : GenRec) : (setGen g r s).cbuf = s.cbuf := rfl
@[simp] theorem setGen_ie (g : UnitNo) (r : GenRec) : (setGen g r s).ie = s.ie := rfl
@[simp] theorem setGen_status (g : UnitNo) (r : GenRec) : (setGen g r s).status = s.status := rfl
@[simp] theorem setGen_result (g : UnitNo) (r : GenRec) : (setGen g r s).result = s.result := rfl
@[simp] theorem setGen_timers (g : UnitNo) (r : GenRec) : (setGen g r s).timers = s.timers := rfl
@[simp] theorem setGen_gens (g : UnitNo) (r : GenRec) : (setGen g r s).gens = s.gens.set g.val r := rfl
@[simp] theorem setGen_trace (g : UnitNo) (r : GenRec) : (setGen g r s).trace = s.trace := rfl
@[simp] theorem setGen_draws (g : UnitNo) (r : GenRec) : (setGen g r s).draws = s.draws := rfl

/-! ## setResult -/

@[simp] theorem setResult_platform (v : Word) : (setResult v s).platform = s.platform := rfl
@[simp] theorem setResult_port (v : Word) : (setResult v s).port = s.port := rfl
@[simp] theorem setResult_csp (v : Word) : (setResult v s).csp = s.csp := rfl
@[simp] theorem setResult_cbuf (v : Word) : (setResult v s).cbuf = s.cbuf := rfl
@[simp] theorem setResult_ie (v : Word) : (setResult v s).ie = s.ie := rfl
@[simp] theorem setResult_status (v : Word) : (setResult v s).status = s.status := rfl
@[simp] theorem setResult_result (v : Word) : (setResult v s).result = v := rfl
@[simp] theorem setResult_timers (v : Word) : (setResult v s).timers = s.timers := rfl
@[simp] theorem setResult_gens (v : Word) : (setResult v s).gens = s.gens := rfl
@[simp] theorem setResult_trace (v : Word) : (setResult v s).trace = s.trace := rfl
@[simp] theorem setResult_draws (v : Word) : (setResult v s).draws = s.draws := rfl

/-! ## raiseError -/

@[simp] theorem raiseError_platform (e : ErrCode) : (raiseError e s).platform = s.platform := rfl
@[simp] theorem raiseError_port (e : ErrCode) : (raiseError e s).port = s.port := rfl
@[simp] theorem raiseError_csp (e : ErrCode) : (raiseError e s).csp = s.csp := rfl
@[simp] theorem raiseError_cbuf (e : ErrCode) : (raiseError e s).cbuf = s.cbuf := rfl
@[simp] theorem raiseError_ie (e : ErrCode) : (raiseError e s).ie = s.ie := rfl
@[simp] theorem raiseError_status (e : ErrCode) : (raiseError e s).status = recordError e s.status := rfl
@[simp] theorem raiseError_result (e : ErrCode) : (raiseError e s).result = s.result := rfl
@[simp] theorem raiseError_timers (e : ErrCode) : (raiseError e s).timers = s.timers := rfl
@[simp] theorem raiseError_gens (e : ErrCode) : (raiseError e s).gens = s.gens := rfl
@[simp] theorem raiseError_trace (e : ErrCode) : (raiseError e s).trace = s.trace := rfl
@[simp] theorem raiseError_draws (e : ErrCode) : (raiseError e s).draws = s.draws := rfl

/-! ## drawHalf -/

@[simp] theorem drawHalf_platform : ((drawHalf s).2).platform = s.platform := rfl
@[simp] theorem drawHalf_port : ((drawHalf s).2).port = s.port := rfl
@[simp] theorem drawHalf_csp : ((drawHalf s).2).csp = s.csp := rfl
@[simp] theorem drawHalf_cbuf : ((drawHalf s).2).cbuf = s.cbuf := rfl
@[simp] theorem drawHalf_ie : ((drawHalf s).2).ie = s.ie := rfl
@[simp] theorem drawHalf_status : ((drawHalf s).2).status = s.status := rfl
@[simp] theorem drawHalf_result : ((drawHalf s).2).result = s.result := rfl
@[simp] theorem drawHalf_timers : ((drawHalf s).2).timers = s.timers := rfl
@[simp] theorem drawHalf_gens : ((drawHalf s).2).gens = s.gens := rfl
@[simp] theorem drawHalf_trace : ((drawHalf s).2).trace = s.trace := rfl
@[simp] theorem drawHalf_draws : ((drawHalf s).2).draws = s.draws + 1 := rfl

/-! ## consume -/

@[simp] theorem consume_platform (n : Nat) (rest : List Word) : (consume n rest s).platform = s.platform := rfl
@[simp] theorem consume_port (n : Nat) (rest : List Word) : (consume n rest s).port = rest := rfl
@[simp] theorem consume_csp (n : Nat) (rest : List Word) : (consume n rest s).csp = s.csp + n := rfl
@[simp] theorem consume_cbuf (n : Nat) (rest : List Word) : (consume n rest s).cbuf = [] := rfl
@[simp] theorem consume_ie (n : Nat) (rest : List Word) : (consume n rest s).ie = s.ie := rfl
@[simp] theorem consume_status (n : Nat) (rest : List Word) : (consume n rest s).status = s.status := rfl
@[simp] theorem consume_result (n : Nat) (rest : List Word) : (consume n rest s).result = s.result := rfl
@[simp] theorem consume_timers (n : Nat) (rest : List Word) : (consume n rest s).timers = s.timers := rfl
@[simp] theorem consume_gens (n : Nat) (rest : List Word) : (consume n rest s).gens = s.gens := rfl
@[simp] theorem consume_trace (n : Nat) (rest : List Word) : (consume n rest s).trace = s.trace := rfl
@[simp] theorem consume_draws (n : Nat) (rest : List Word) : (consume n rest s).draws = s.draws := rfl

/-! ## Records -/

@[simp] theorem timer_setTimer_self (t : UnitNo) (r : TimerRec) : (setTimer t r s).timer t = r := by
  simp [State.timer]

@[simp] theorem timer_setTimer_ne {t u : UnitNo} (h : u ≠ t) (r : TimerRec) :
    (setTimer t r s).timer u = s.timer u := by
  simp [State.timer, Fin.val_inj, h.symm]

@[simp] theorem gen_setGen_self (g : UnitNo) (r : GenRec) : (setGen g r s).gen g = r := by
  simp [State.gen]

@[simp] theorem gen_setGen_ne {g h : UnitNo} (hne : h ≠ g) (r : GenRec) : (setGen g r s).gen h = s.gen h := by
  simp [State.gen, Fin.val_inj, hne.symm]

/-- Writing a timer's record back changes nothing. -/
theorem setTimer_timer (t : UnitNo) : setTimer t (s.timer t) s = s := by
  simp [setTimer, State.timer]

/-- Writing a slot's record back changes nothing. -/
theorem setGen_gen (g : UnitNo) : setGen g (s.gen g) s = s := by
  simp [setGen, State.gen]

/-- The last of two writes of one timer's record stands. -/
theorem setTimer_setTimer (t : UnitNo) (r r' : TimerRec) : setTimer t r' (setTimer t r s) = setTimer t r' s := by
  simp [setTimer]

/-- A record is unchanged by an update that keeps the table of records. -/
theorem timer_congr {s s' : State} (h : s'.timers = s.timers) (t : UnitNo) : s'.timer t = s.timer t := by
  simp [State.timer, h]

/-- A slot is unchanged by an update that keeps the table of slots. -/
theorem gen_congr {s s' : State} (h : s'.gens = s.gens) (g : UnitNo) : s'.gen g = s.gen g := by
  simp [State.gen, h]

/-- A timer's parameters are unchanged by an update that keeps the platform. -/
theorem cfg_congr {s s' : State} (h : s'.platform = s.platform) (t : UnitNo) : s'.cfg t = s.cfg t := by
  simp [State.cfg, h]

end Sys2Proof.Machine
end

