-- ==== Sys2Proof/Laws/Ops.lean ====
section
/-! SUPPORT. One lemma per shared operation that says once everything it does: the timer operations and the pulse
write as one update of the state, and the cases of the guards of the meanings. -/

namespace Sys2Proof.Machine

/-! ## Guards -/

/-- The two ways a timer command goes (R106). -/
theorem withTimer_cases {t : UnitNo} {s s' : State} {k : State → State} (h : withTimer t s k = .next s') :
    (t.val < s.platform.numTimers ∧ s' = k s) ∨
      (¬ t.val < s.platform.numTimers ∧ s' = raiseError .badUnit s) := by
  unfold withTimer at h
  split at h <;> cases h
  · exact .inl ⟨‹_›, rfl⟩
  · exact .inr ⟨‹_›, rfl⟩

/-- The three ways a generator command other than SINIT goes (R50, R106). -/
theorem withGenerator_cases {g : UnitNo} {s s' : State} {k : State → State}
    (h : withGenerator g s k = .next s') :
    (g.val < s.platform.numGenerators ∧ (s.gen g).valid = true ∧ s' = k s) ∨
      (¬ g.val < s.platform.numGenerators ∧ s' = raiseError .badUnit s) ∨
      ((s.gen g).valid = false ∧ s' = raiseError .unconstructed s) := by
  unfold withGenerator at h
  split at h
  · split at h <;> cases h
    · exact .inl ⟨‹_›, ‹_›, rfl⟩
    · exact .inr (.inr ⟨Bool.eq_false_iff.mpr ‹_›, rfl⟩)
  · cases h
    exact .inr (.inl ⟨‹_›, rfl⟩)

theorem withTimer_next {t : UnitNo} {s : State} (k : State → State) (h : t.val < s.platform.numTimers) :
    withTimer t s k = .next (k s) := by
  simp [withTimer, h]

theorem withGenerator_next {g : UnitNo} {s : State} (k : State → State) (h : g.val < s.platform.numGenerators)
    (hv : (s.gen g).valid = true) : withGenerator g s k = .next (k s) := by
  simp [withGenerator, h, hv]

/-! ## The commit -/

/-- A commit adds its events to the trace and does nothing else (R138). -/
theorem commit_eq (t : UnitNo) (s : State) :
    commit t s =
      { s with trace := s.trace ++ commitEvents s.platform.layout (s.cfg t) t (s.timer t).shadow } := by
  cases h : (s.cfg t).is16 <;> simp [commit, commitEvents, memWrite, emit, h]

/-! ## Mode-sets -/

/-- The register writes of a mode-set, in order (R144). -/
def modeEvents (l : Layout) (c : TimerCfg) (t : UnitNo) (icr : Option Half) (sh : Shadow) : List Event :=
  (icr.toList.map fun v => .write t .icr (.half v)) ++ commitEvents l c t sh ++ [.write t .cnt (timerWide c 0)]

/-- A mode-set's body as one update of the state (R143, R144). -/
theorem modeSetBody_eq (t : UnitNo) (wgm : BitVec 4) (icr : Option Half) (mode : Mode) (top : Half) (s : State) :
    modeSetBody t wgm icr mode top s =
      { s with
        timers := s.timers.set t.val
          { shadow := modeShadow s.platform.layout (s.cfg t) wgm (s.timer t).psStaged
            psStaged := (s.timer t).psStaged, mode := mode, psApplied := (s.timer t).psStaged, top := top }
        trace := s.trace ++ modeEvents s.platform.layout (s.cfg t) t icr
          (modeShadow s.platform.layout (s.cfg t) wgm (s.timer t).psStaged) } := by
  cases icr <;>
    simp [modeSetBody, modeEvents, commit_eq, memWrite, emit, setTimer, State.timer, State.cfg]

/-- A mode-set as one update of the state: its body's, inside a critical section that restores IE (R136, R143). -/
theorem modeSet_eq (t : UnitNo) (wgm : BitVec 4) (icr : Option Half) (mode : Mode) (top : Half) (s : State) :
    critical (modeSetBody t wgm icr mode top) s =
      { s with
        timers := s.timers.set t.val
          { shadow := modeShadow s.platform.layout (s.cfg t) wgm (s.timer t).psStaged
            psStaged := (s.timer t).psStaged, mode := mode, psApplied := (s.timer t).psStaged, top := top }
        trace := s.trace ++ [.ie false] ++ modeEvents s.platform.layout (s.cfg t) t icr
          (modeShadow s.platform.layout (s.cfg t) wgm (s.timer t).psStaged) ++ [.ie s.ie] } := by
  simp [critical, modeSetBody_eq, setIE, emit, State.timer, State.cfg]

/-- TMODEN's effect as one update of the state (R145). -/
theorem modeNormal_eq (t : UnitNo) (s : State) :
    modeNormal t s = critical (modeSetBody t 0 none .normal 0) s := rfl

/-- TMODEF's effect as one update of the state (R149). -/
theorem modeFast_eq (t : UnitNo) (top : Half) (s : State) :
    modeFast t top s =
      critical (modeSetBody t (wgmFast s.platform.layout (s.cfg t)) (if (s.cfg t).is16 then some top else none)
        .fastPwm top) s := rfl

/-! ## Compare writes -/

/-- A channel of a compare write is requested and present (R155, R160). -/
def selected (c : TimerCfg) (mask : BitVec 3) (ch : Channel) : Bool := maskHas mask ch && chanPresent c ch

/-- The shadow a compare write leaves (R156). -/
def compareShadow (l : Layout) (c : TimerCfg) (mask : BitVec 3) (inv : Bool) (sh : Shadow) : Shadow :=
  let com := if inv then l.comSet else l.comClear
  { sh with
    comA := if selected c mask .A then com else sh.comA
    comB := if selected c mask .B then com else sh.comB
    comC := if selected c mask .C then com else sh.comC }

/-- The compare-register writes of a compare write, in order (R157). -/
def compareEvents (c : TimerCfg) (t : UnitNo) (mask : BitVec 3) (value : Half) : List Event :=
  (if selected c mask .A then [.write t .ocrA (timerWide c value)] else []) ++
    (if selected c mask .B then [.write t .ocrB (timerWide c value)] else []) ++
    (if selected c mask .C then [.write t .ocrC (timerWide c value)] else [])

/-- The shadow one channel of a compare write leaves. -/
def channelShadow (l : Layout) (c : TimerCfg) (mask : BitVec 3) (inv : Bool) (ch : Channel) (sh : Shadow) : Shadow :=
  if selected c mask ch then setShadowCom ch (if inv then l.comSet else l.comClear) sh else sh

/-- The compare-register write of one channel. -/
def channelEvents (c : TimerCfg) (t : UnitNo) (mask : BitVec 3) (value : Half) (ch : Channel) : List Event :=
  if selected c mask ch then [.write t (ocrReg ch) (timerWide c value)] else []

/-- One channel of a compare write as one update of the state. -/
theorem compareChannel_eq (t : UnitNo) (mask : BitVec 3) (inv : Bool) (value : Half) (ch : Channel) (s : State) :
    compareChannel t mask inv value ch s =
      { s with
        timers := s.timers.set t.val
          { s.timer t with shadow := channelShadow s.platform.layout (s.cfg t) mask inv ch (s.timer t).shadow }
        trace := s.trace ++ channelEvents (s.cfg t) t mask value ch } := by
  cases h : selected (s.cfg t) mask ch <;> rw [selected] at h
  · simp only [compareChannel, channelShadow, channelEvents, selected, h, Bool.false_eq_true, if_false,
      List.append_nil]
    exact (setTimer_timer s t).symm
  · simp [compareChannel, channelShadow, channelEvents, selected, h, memWrite, emit, setTimer, State.timer]

theorem channelShadow_all (l : Layout) (c : TimerCfg) (mask : BitVec 3) (inv : Bool) (sh : Shadow) :
    channelShadow l c mask inv .C (channelShadow l c mask inv .B (channelShadow l c mask inv .A sh)) =
      compareShadow l c mask inv sh := by
  cases hA : selected c mask .A <;> cases hB : selected c mask .B <;> cases hC : selected c mask .C <;>
    simp [channelShadow, compareShadow, setShadowCom, hA, hB, hC]

/-- A compare write as one update of the state (R155). -/
theorem compareWrite_eq (t : UnitNo) (mask : BitVec 3) (inv : Bool) (value : Half) (s : State) :
    compareWrite t mask inv value s =
      { s with
        timers := s.timers.set t.val
          { s.timer t with
            shadow := compareShadow s.platform.layout (s.cfg t) mask inv (s.timer t).shadow }
        trace := s.trace ++ [.ie false] ++ compareEvents (s.cfg t) t mask value ++
          commitEvents s.platform.layout (s.cfg t) t
            (compareShadow s.platform.layout (s.cfg t) mask inv (s.timer t).shadow) ++ [.ie s.ie] } := by
  simp only [compareWrite, critical, commit_eq, compareChannel_eq]
  simp only [setIE, emit, State.timer, State.cfg, Vector.getElem_set_self, Vector.set_set, channelShadow_all]
  simp [channelEvents, compareEvents, ocrReg]

/-! ## Pulse writes -/

/-- The value written for a tick count, and the draws after it, as the over-range policy says (R199). -/
theorem compareValue_eq (ticks : Nat) (s : State) :
    compareValue ticks s =
      (if ticks ≤ 0xFFFF then BitVec.ofNat 16 ticks
        else if s.platform.overrange = .any then Config.freeHalf s.draws else 0xFFFF,
       { s with draws := if 0xFFFF < ticks ∧ s.platform.overrange = .any then s.draws + 1 else s.draws }) := by
  unfold compareValue Config.counter16Max
  by_cases h : ticks ≤ 0xFFFF
  · simp [h, Nat.not_lt.mpr h]
  · cases ho : s.platform.overrange <;> simp [h, Nat.lt_of_not_le h, drawHalf]

/-- The compare write a pulse write ends in, with the width stored and a draw counted (R198). -/
theorem pulseWrite_eq (g : UnitNo) (x : Int) (s : State) :
    pulseWrite g x s =
      (let r := s.gen g
       let pw : Half := BitVec.ofInt 16 (clamp x r.minUs.toNat r.maxUs.toNat)
       let ticks := ticksOf r.n.toNat pw.toNat
       let v := (compareValue ticks s).1
       compareWrite r.timer (maskOf r.ch) false v
        { s with
          gens := s.gens.set g.val { r with pw := pw }
          draws := if 0xFFFF < ticks ∧ s.platform.overrange = .any then s.draws + 1 else s.draws }) := by
  simp only [pulseWrite, compareValue_eq, setGen]

end Sys2Proof.Machine
end

