-- ==== Sys2Proof/Laws/Operands.lean ====
section
/-! SUPPORT. The arithmetic of the operands: prescaler codes, clamped widths, ticks, the auto-tune's range, and what
a pulse write leaves in its slot. -/

namespace Sys2Proof.Machine

/-- The prescaler codes 0 to 4 round-trip (R41). -/
@[simp] theorem psOfCode_psCode (p : Prescaler) : psOfCode (psCode p) = some p := by cases p <;> rfl

/-- Codes above 4 name no prescaler (R107). -/
theorem psOfCode_none {p : BitVec 3} (h : 5 ≤ p.toNat) : psOfCode p = none := by
  revert p; decide

/-! ## Clamps (R22, R197) -/

/-- A width clamped between two u16 bounds fits a u16. -/
theorem clamp_toNat (x : Int) (lo hi : Half) :
    ((BitVec.ofInt 16 (clamp x lo.toNat hi.toNat)).toNat : Int) = clamp x lo.toNat hi.toNat := by
  have h1 := lo.isLt
  have h2 := hi.isLt
  have : 0 ≤ clamp x lo.toNat hi.toNat ∧ clamp x lo.toNat hi.toNat < 65536 := by
    unfold clamp; split_ifs <;> omega
  rw [BitVec.toNat_ofInt]
  omega

theorem clamp_clamp (x : Int) {lo hi : Int} (h : lo ≤ hi) : clamp (clamp x lo hi) lo hi = clamp x lo hi := by
  unfold clamp; split_ifs <;> omega

theorem clamp_eq_max_min (x : Int) {lo hi : Int} (h : lo ≤ hi) : clamp x lo hi = max lo (min x hi) := by
  unfold clamp; split_ifs <;> omega

/-! ## Ticks and the auto-tune (R186, R187, R198) -/

/-- The tick count in the integer form of R198. -/
theorem ticksOf_eq (n pw : Nat) : ticksOf n pw = (2 * n * pw + 20000) / 40000 := by
  unfold ticksOf rnd Config.periodUs
  rw [if_pos (by positivity)]
  have e : (2 * ((n : Int) * pw) + (20000 : Nat)) / (2 * (20000 : Nat)) =
      (((2 * n * pw + 20000) / 40000 : Nat) : Int) := by
    push_cast; rw [mul_assoc]
  rw [e]
  exact Int.toNat_natCast _

/-- The auto-tune answers legal tick counts only (R187). -/
theorem autoTune_range {f : Nat} {p : Prescaler} {n : Nat} (h : autoTune f = some (p, n)) : 1 ≤ n ∧ n ≤ 65536 := by
  unfold autoTune at h
  dsimp only at h
  split at h
  · cases h
  · rw [Option.some.injEq] at h
    have : n = (autoTuneSelect f).2 := by rw [h]
    omega

/-! ## The slot after a pulse write (R197, R198) -/

/-- A pulse write changes the width of its slot alone. -/
theorem gen_pulseWrite (g : UnitNo) (x : Int) (s : State) :
    (pulseWrite g x s).gen g =
      { s.gen g with pw := BitVec.ofInt 16 (clamp x (s.gen g).minUs.toNat (s.gen g).maxUs.toNat) } := by
  rw [pulseWrite_eq]
  simp only [compareWrite_eq]
  simp [State.gen]

/-- A pulse write depends on the requested width only through its clamp. -/
theorem pulseWrite_congr {g : UnitNo} {x y : Int} {s : State}
    (h : clamp x (s.gen g).minUs.toNat (s.gen g).maxUs.toNat = clamp y (s.gen g).minUs.toNat (s.gen g).maxUs.toNat) :
    pulseWrite g x s = pulseWrite g y s := by
  simp only [pulseWrite, h]

@[simp] theorem pulseWrite_result (g : UnitNo) (x : Int) (s : State) : (pulseWrite g x s).result = s.result := by
  rw [pulseWrite_eq]; simp only [compareWrite_eq]

@[simp] theorem pulseWrite_status (g : UnitNo) (x : Int) (s : State) : (pulseWrite g x s).status = s.status := by
  rw [pulseWrite_eq]; simp only [compareWrite_eq]

@[simp] theorem pulseCommand_status (g : UnitNo) (xs : Int × State) :
    (pulseCommand g xs).status = xs.2.status := by
  simp [pulseCommand]

@[simp] theorem requestWidth_status (g : UnitNo) (f : GenRec → Ratio → Int) (x : Word) (s : State) :
    (requestWidth g f x s).2.status = s.status := by
  unfold requestWidth; split <;> rfl

end Sys2Proof.Machine
end

