-- ==== Sys2Proof/Laws/PerInstr.lean ====
section
/-! SUPPORT. Rules about every command as syntax, one lemma per constructor. -/

namespace Sys2Proof.Laws.EncodeLength

/-- The encoding of a command begins with a header whose opcode byte gives its length in words: 1, 2 or 3 (R100,
R103, R104). -/
def Statement (i : Instr) : Prop :=
  (encode i).length = opLen (opField ((encode i).headD 0)) ∧ 1 ≤ (encode i).length ∧ (encode i).length ≤ 3

theorem tsetps (t : UnitNo) (p : BitVec 3) : Statement (.tsetps t p) := by
  simp [Statement, encode, opcodeByte, opLen]

theorem tmoden (t : UnitNo) : Statement (.tmoden t) := by
  simp [Statement, encode, opcodeByte, opLen]

theorem tmodef (t : UnitNo) (top : Half) : Statement (.tmodef t top) := by
  simp [Statement, encode, opcodeByte, opLen]

theorem tsetcmp (t : UnitNo) (mask : BitVec 3) (inv : Bool) (value : Half) :
    Statement (.tsetcmp t mask inv value) := by
  simp [Statement, encode, opcodeByte, opLen]

theorem tquery (t : UnitNo) : Statement (.tquery t) := by
  simp [Statement, encode, opcodeByte, opLen]

theorem sinit (g : UnitNo) (pin minUs maxUs initUs : Half) : Statement (.sinit g pin minUs maxUs initUs) := by
  simp [Statement, encode, opcodeByte, opLen]

theorem ssetpw (g : UnitNo) (pw : Half) : Statement (.ssetpw g pw) := by
  simp [Statement, encode, opcodeByte, opLen]

theorem ssetang (g : UnitNo) (x : Word) : Statement (.ssetang g x) := by
  simp [Statement, encode, opcodeByte, opLen]

theorem ssetpos (g : UnitNo) (x : Word) : Statement (.ssetpos g x) := by
  simp [Statement, encode, opcodeByte, opLen]

theorem squery (g : UnitNo) : Statement (.squery g) := by
  simp [Statement, encode, opcodeByte, opLen]

end Sys2Proof.Laws.EncodeLength
end

