-- ==== Sys2Proof/Laws/Step.lean ====
section
/-! SUPPORT. What one step can do, said once, and the induction over the effects of a command. -/

namespace Sys2Proof.Machine

/-! ## Steps -/

/-- The four kinds of step: nothing to consume, a word buffered, a decode error, a command executed (R36, R37). -/
theorem step_cases {s s' : State} (h : step s = .next s') :
    (s.port = [] ∧ s' = s) ∨
    (∃ w rest, s.port = w :: rest ∧ decode (s.cbuf ++ [w]) = .error .incomplete ∧
      s' = { s with port := rest, cbuf := s.cbuf ++ [w] }) ∨
    (∃ w rest e, s.port = w :: rest ∧
      (decode (s.cbuf ++ [w]) = .error .illegalOpcode ∧ e = .illegalOpcode ∨
        decode (s.cbuf ++ [w]) = .error .reserved ∧ e = .reserved) ∧
      s' = raiseError e (consume (lenOf (s.cbuf ++ [w])) rest s)) ∨
    (∃ w rest i r, s.port = w :: rest ∧ decode (s.cbuf ++ [w]) = .ok (i, r) ∧
      exec i (consume (lenOf (s.cbuf ++ [w])) rest s) = .next s') := by
  unfold step fetch at h
  cases hp : s.port with
  | nil =>
    simp only [hp] at h
    cases h
    exact .inl ⟨rfl, rfl⟩
  | cons w rest =>
    simp only [hp] at h
    refine .inr ?_
    cases hd : decode (s.cbuf ++ [w]) with
    | error e =>
      cases e <;> simp only [hd] at h <;> cases h
      · exact .inr (.inl ⟨w, rest, .illegalOpcode, rfl, .inl ⟨hd, rfl⟩, rfl⟩)
      · exact .inr (.inl ⟨w, rest, .reserved, rfl, .inr ⟨hd, rfl⟩, rfl⟩)
      · exact .inl ⟨w, rest, rfl, hd, rfl⟩
    | ok p =>
      simp only [hd] at h
      exact .inr (.inr ⟨w, rest, p.1, p.2, rfl, hd, h⟩)

/-- A step that executes a command (R36). -/
theorem step_command {s : State} {w : Word} {rest r : List Word} {i : Instr} (hp : s.port = w :: rest)
    (hd : decode (s.cbuf ++ [w]) = .ok (i, r)) :
    step s = exec i (consume (lenOf (s.cbuf ++ [w])) rest s) := by
  unfold step fetch
  simp only [hp, hd]

/-! ## Commands -/

/-! Each command as its guard and its effect. -/

theorem exec_tsetps (t : UnitNo) (p : BitVec 3) (s : State) :
    exec (.tsetps t p) s = withTimer t s fun s =>
      match psOfCode p with
      | some ps => stagePrescaler t ps s
      | none => raiseError .badPrescaler s := rfl

theorem exec_tmoden (t : UnitNo) (s : State) : exec (.tmoden t) s = withTimer t s (modeNormal t) := rfl

theorem exec_tmodef (t : UnitNo) (top : Half) (s : State) :
    exec (.tmodef t top) s = withTimer t s (modeFast t top) := rfl

theorem exec_tsetcmp (t : UnitNo) (mask : BitVec 3) (inv : Bool) (value : Half) (s : State) :
    exec (.tsetcmp t mask inv value) s = withTimer t s (compareWrite t mask inv value) := rfl

theorem exec_tquery (t : UnitNo) (s : State) :
    exec (.tquery t) s = withTimer t s fun s => setResult (configWord (s.timer t)) s := rfl

theorem exec_ssetpw (g : UnitNo) (pw : Half) (s : State) :
    exec (.ssetpw g pw) s = withGenerator g s fun s => pulseCommand g (pw.toNat, s) := rfl

theorem exec_ssetang (g : UnitNo) (x : Word) (s : State) :
    exec (.ssetang g x) s = withGenerator g s fun s => pulseCommand g (requestWidth g angleTarget x s) := rfl

theorem exec_ssetpos (g : UnitNo) (x : Word) (s : State) :
    exec (.ssetpos g x) s = withGenerator g s fun s => pulseCommand g (requestWidth g percentTarget x s) := rfl

theorem exec_squery (g : UnitNo) (s : State) :
    exec (.squery g) s = withGenerator g s fun s => setResult ((s.gen g).pw.setWidth 32) s := rfl

/-- The ways an SINIT goes (R180, R232). -/
theorem sinit_cases {g : UnitNo} {pin mn mx init : Half} {s s' : State}
    (h : exec (.sinit g pin mn mx init) s = .next s') :
    (∃ e, s' = raiseError e s ∧
      (e = .badUnit ∧ ¬ g.val < s.platform.numGenerators ∨
        e = .badPin ∧ s.platform.pinMap.lookup pin = none ∨
        ∃ t ch, e = .badClock ∧ s.platform.pinMap.lookup pin = some (t, ch) ∧ autoTune (s.cfg t).fclk = none)) ∨
    ∃ t ch p n, g.val < s.platform.numGenerators ∧ s.platform.pinMap.lookup pin = some (t, ch) ∧
      autoTune (s.cfg t).fclk = some (p, n) ∧ s' = constructGenerator g pin mn mx init t ch p n s := by
  simp only [exec, execSinit] at h
  by_cases hg : g.val < s.platform.numGenerators
  · rw [if_pos hg] at h
    cases hp : s.platform.pinMap.lookup pin with
    | none =>
      simp only [hp] at h
      cases h
      exact .inl ⟨_, rfl, .inr (.inl ⟨rfl, rfl⟩)⟩
    | some tc =>
      simp only [hp] at h
      cases ha : autoTune (s.cfg tc.1).fclk with
      | none =>
        simp only [ha] at h
        cases h
        exact .inl ⟨_, rfl, .inr (.inr ⟨tc.1, tc.2, rfl, rfl, ha⟩)⟩
      | some pn =>
        simp only [ha] at h
        cases h
        exact .inr ⟨tc.1, tc.2, pn.1, pn.2, hg, rfl, ha, rfl⟩
  · rw [if_neg hg] at h
    cases h
    exact .inl ⟨_, rfl, .inl ⟨rfl, hg⟩⟩

/-- An SINIT whose checks pass (R180). -/
theorem exec_sinit {g : UnitNo} {pin mn mx init : Half} {s : State} {t : UnitNo} {ch : Channel} {p : Prescaler}
    {n : Nat} (hg : g.val < s.platform.numGenerators) (hp : s.platform.pinMap.lookup pin = some (t, ch))
    (ha : autoTune (s.cfg t).fclk = some (p, n)) :
    exec (.sinit g pin mn mx init) s = .next (constructGenerator g pin mn mx init t ch p n s) := by
  simp only [exec, execSinit, hg, if_true, hp, ha]

/-- A relation between states that is reflexive and transitive and holds across each effect a command is made of
holds across every command. Each whole-machine rule about commands is an instance of this one induction. -/
theorem exec_induction {P : State → State → Prop} (refl : ∀ s, P s s)
    (trans : ∀ {a b c}, P a b → P b c → P a c) (raise : ∀ e s, P s (raiseError e s))
    (result : ∀ v s, P s (setResult v s)) (stage : ∀ t p s, P s (stagePrescaler t p s))
    (normal : ∀ t s, P s (modeNormal t s)) (fast : ∀ t top s, P s (modeFast t top s))
    (compare : ∀ t mask inv v s, P s (compareWrite t mask inv v s)) (gen : ∀ g r s, P s (setGen g r s))
    (draw : ∀ s, P s (drawHalf s).2) (pin : ∀ p s, P s (emit (.pinOut p) s)) {i : Instr} {s s' : State}
    (h : exec i s = .next s') : P s s' := by
  have value : ∀ n s, P s (compareValue n s).2 := by
    intro n s
    unfold compareValue
    split
    · exact refl s
    · split
      · exact refl s
      · exact draw s
  have pulse : ∀ g x s, P s (pulseWrite g x s) := by
    intro g x s
    exact trans (trans (gen _ _ _) (value _ _)) (compare _ _ _ _ _)
  have request : ∀ g f x s, P s (requestWidth g f x s).2 := by
    intro g f x s
    unfold requestWidth
    split
    · exact draw s
    all_goals exact refl s
  have command : ∀ g xs s, P s xs.2 → P s (pulseCommand g xs) := by
    intro g xs s hs
    exact trans hs (trans (pulse _ _ _) (result _ _))
  have configure : ∀ t p n s, P s (configureTimer t p n s) := by
    intro t p n s
    unfold configureTimer
    split
    · exact refl _
    · exact trans (stage _ _ _) (fast _ _ _)
  cases i with
  | tsetps t p =>
    rw [exec_tsetps] at h
    rcases withTimer_cases h with ⟨-, rfl⟩ | ⟨-, rfl⟩
    · cases psOfCode p
      exacts [raise _ _, stage _ _ _]
    · exact raise _ _
  | tmoden t =>
    rw [exec_tmoden] at h
    rcases withTimer_cases h with ⟨-, rfl⟩ | ⟨-, rfl⟩
    exacts [normal _ _, raise _ _]
  | tmodef t top =>
    rw [exec_tmodef] at h
    rcases withTimer_cases h with ⟨-, rfl⟩ | ⟨-, rfl⟩
    exacts [fast _ _ _, raise _ _]
  | tsetcmp t mask inv v =>
    rw [exec_tsetcmp] at h
    rcases withTimer_cases h with ⟨-, rfl⟩ | ⟨-, rfl⟩
    exacts [compare _ _ _ _ _, raise _ _]
  | tquery t =>
    rw [exec_tquery] at h
    rcases withTimer_cases h with ⟨-, rfl⟩ | ⟨-, rfl⟩
    exacts [result _ _, raise _ _]
  | sinit g pin' mn mx init =>
    rcases sinit_cases h with ⟨e, rfl, -⟩ | ⟨t, ch, p, n, -, -, -, rfl⟩
    · exact raise _ _
    · exact trans (trans (trans (gen g (newGenerator pin' mn mx t ch n (s.gen g).pw) s) (pin pin' _))
        (configure t p n _)) (pulse g init.toNat _)
  | ssetpw g pw =>
    rw [exec_ssetpw] at h
    rcases withGenerator_cases h with ⟨-, -, rfl⟩ | ⟨-, rfl⟩ | ⟨-, rfl⟩
    exacts [command _ _ _ (refl s), raise _ _, raise _ _]
  | ssetang g x =>
    rw [exec_ssetang] at h
    rcases withGenerator_cases h with ⟨-, -, rfl⟩ | ⟨-, rfl⟩ | ⟨-, rfl⟩
    exacts [command _ _ _ (request _ _ _ _), raise _ _, raise _ _]
  | ssetpos g x =>
    rw [exec_ssetpos] at h
    rcases withGenerator_cases h with ⟨-, -, rfl⟩ | ⟨-, rfl⟩ | ⟨-, rfl⟩
    exacts [command _ _ _ (request _ _ _ _), raise _ _, raise _ _]
  | squery g =>
    rw [exec_squery] at h
    rcases withGenerator_cases h with ⟨-, -, rfl⟩ | ⟨-, rfl⟩ | ⟨-, rfl⟩
    exacts [result _ _, raise _ _, raise _ _]

end Sys2Proof.Machine
end

