-- ==== Sys2Proof/Laws/Trace.lean ====
section
/-! SUPPORT. Traces: how critical sections and last writes go through an append, and what the events of a commit and
of a compare write are. -/

namespace Sys2Proof.Machine

/-- A relation that is reflexive and transitive and holds across consuming words, raising an error and executing a
command holds across every step. -/
theorem step_induction {P : State → State → Prop} (refl : ∀ s, P s s) (trans : ∀ {a b c}, P a b → P b c → P a c)
    (take : ∀ s rest buf c, P s { s with port := rest, cbuf := buf, csp := c })
    (raise : ∀ e s, P s (raiseError e s)) (command : ∀ i s s', exec i s = .next s' → P s s') {s s' : State}
    (h : step s = .next s') : P s s' := by
  rcases step_cases h with ⟨-, rfl⟩ | ⟨w, rest, -, -, rfl⟩ | ⟨w, rest, e, -, -, rfl⟩ | ⟨w, rest, i, r, -, -, h⟩
  · exact refl _
  · exact take s _ _ s.csp
  · exact trans (take s rest [] _) (raise _ _)
  · exact trans (take s rest [] _) (command _ _ _ h)

/-! ## Critical sections (R136) -/

/-- Whole sections after whole sections are whole sections. -/
theorem sectioned_append {v b : Bool} {x y : List Event} (hx : sectioned v b x = true)
    (hy : sectioned v false y = true) : sectioned v b (x ++ y) = true := by
  induction x generalizing b with
  | nil => cases b <;> simp_all [sectioned]
  | cons e x ih => cases b <;> cases e <;> simp_all [sectioned]

/-- Register writes between IE(0) and IE(v) are one section. -/
theorem sectioned_writes (v : Bool) {x : List Event} (h : ∀ e ∈ x, ∃ t r w, e = .write t r w) :
    sectioned v false ([.ie false] ++ x ++ [.ie v]) = true := by
  have inside : sectioned v true (x ++ [.ie v]) = true := by
    induction x with
    | nil => simp [sectioned]
    | cons e x ih =>
      obtain ⟨t, r, w, rfl⟩ := h e (by simp)
      simpa [sectioned] using ih fun e he => h e (by simp [he])
  simpa [sectioned] using inside

/-- A commit is register writes. -/
theorem commitEvents_writes (l : Layout) (c : TimerCfg) (t : UnitNo) (sh : Shadow) :
    ∀ e ∈ commitEvents l c t sh, ∃ t r w, e = .write t r w := by
  intro e
  unfold commitEvents
  split <;> simp <;> rintro (rfl | rfl | rfl) <;> simp

/-- The compare-register writes of a compare write are register writes. -/
theorem compareEvents_writes (c : TimerCfg) (t : UnitNo) (mask : BitVec 3) (v : Half) :
    ∀ e ∈ compareEvents c t mask v, ∃ t r w, e = .write t r w := by
  intro e
  unfold compareEvents
  simp
  rintro (⟨_, rfl⟩ | ⟨_, rfl⟩ | ⟨_, rfl⟩) <;> simp

/-! ## Last writes (R59) -/

theorem lastWrite_append (t : UnitNo) (r : RegName) (x y : List Event) :
    lastWrite t r (x ++ y) = (lastWrite t r y).or (lastWrite t r x) := by
  induction x with
  | nil => simp [lastWrite]
  | cons e x ih =>
    simp only [List.cons_append, lastWrite, ih]
    cases lastWrite t r y <;> cases lastWrite t r x <;> simp

theorem lastWrite_eq_none {t : UnitNo} {r : RegName} {x : List Event} (h : ∀ v, Event.write t r v ∉ x) :
    lastWrite t r x = none := by
  induction x with
  | nil => rfl
  | cons e x ih =>
    have := ih fun v hv => h v (by simp [hv])
    simp only [lastWrite, this]
    cases e with
    | write t' r' v =>
      simp only
      rw [if_neg]
      rintro ⟨rfl, rfl⟩
      exact h v (by simp)
    | _ => rfl

/-- What a commit writes to the control registers (R138). -/
theorem lastWrite_commit (l : Layout) (c : TimerCfg) (t : UnitNo) (sh : Shadow) :
    lastWrite t .ctrlA (commitEvents l c t sh) = some (.byte (composeA l c sh)) ∧
      lastWrite t .ctrlB (commitEvents l c t sh) = some (.byte (composeB l c sh)) ∧
      lastWrite t .ctrlC (commitEvents l c t sh) = if c.is16 then some (.byte (composeC l c sh)) else none := by
  unfold commitEvents
  cases c.is16 <;> simp [lastWrite]

end Sys2Proof.Machine
end

