-- ==== Sys2Proof/Tests/Slice0.lean ====
section
/-! SUPPORT. Tests of the model. Expected values are the worked vectors of spec/95_test_vectors.md (V2.x, V3.x, V4.x,
P1 to P5) and the encodings of spec/30_encoding.md. The theorems `test_meets_…` show a state and operands that meet
all the hypotheses of the obligation they name. -/

namespace Sys2Proof.Tests

open Sys2Proof.Machine

/-! ## Helpers -/

/-- The state an outcome leaves, where it is a next state. -/
def next? : Host.Outcome State Fault Refusal → Option State
  | .next s => some s
  | .fault _ => none
  | .refused _ => none

/-- Timer 1 after `TSETPS t1, DIV8` and `TMODEF t1, 39999` (V2.4). -/
def fastTimer : TimerRec :=
  { shadow := { wgm := 0b1110, cs := 0b010, comA := 0, comB := 0, comC := 0 }
    psStaged := .div8, mode := .fastPwm, psApplied := .div8, top := 39999 }

/-- The reset state with a record in timer 1. -/
def withTimer1 (r : TimerRec) : State := setTimer 1 r State.reset

/-- The record of slot 0 after E1 (spec/95_test_vectors.md section 3.4). -/
def servo : GenRec :=
  { valid := true, pin := 9, timer := 1, ch := .A, minUs := 1000, maxUs := 2000, mid := 1500, mpd := 6, mpp := 10
    n := 40000, pw := 1000 }

/-- The reset state with timer 1 in fast PWM and a generator in slot 0. -/
def withGen (r : GenRec) : State := setGen 0 r (withTimer1 fastTimer)

/-- The state after E1, but for its trace and CSP. -/
def driving : State :=
  setGen 0 servo (withTimer1 { fastTimer with shadow := { fastTimer.shadow with comA := 0b10 } })

/-- A generator with bounds wide enough for an over-range tick count (V3.11i). -/
def wideServo : GenRec := { servo with maxUs := 65535 }

/-- A state with another platform. -/
def onPlatform (p : Platform) (s : State) : State := { s with platform := p }

/-- P0 with a clock of `f` Hz into timer 1. -/
def clocked (f : Nat) : Platform :=
  { platformP0 with timers := platformP0.timers.set 1 { timerCfgP0 true .three 1 with fclk := f } }

/-- P0 with the over-range policy ANY. -/
def drawing : Platform := { platformP0 with overrange := .any }

/-- A state about to take word `w`, with the words `buf` received before it. -/
def taking (buf : List Word) (w : Word) : State := { State.reset with cbuf := buf, port := [w] }

/-- The trace std(v) of V3.12 to V3.31a. -/
def std (v : Half) : List Event :=
  [.ie false, .write 1 .ocrA (.half v), .write 1 .ctrlA (.byte 0x82), .write 1 .ctrlC (.byte 0x00),
   .write 1 .ctrlB (.byte 0x1A), .ie true]

/-! ## Well-formed commands (R106, R107, R119, R183) -/

theorem test_wellFormed_accepts : (Instr.tsetps 1 4).wellFormed = true ∧
    (Instr.tsetps 2 4).fits platformP0 = true ∧ (Instr.sinit 3 12 0 0 0).fits platformP0 = true := by decide

/-- The codes 5, 6 and 7 name no prescaler. -/
theorem test_wellFormed_refuses_prescaler : (Instr.tsetps 1 5).wellFormed = false ∧
    (Instr.tsetps 1 7).wellFormed = false ∧ (Instr.tsetps 1 5).fits platformP0 = false := by decide

/-- Timer 3 of a platform with 3 timers. -/
theorem test_fits_refuses_timer : (Instr.tmoden 3).unitFits platformP0 = false ∧
    (Instr.tmoden 3).fits platformP0 = false := by decide

/-- Slot 4 of a platform with 4 slots. -/
theorem test_fits_refuses_slot : (Instr.squery 4).unitFits platformP0 = false ∧
    (Instr.squery 4).fits platformP0 = false := by decide

/-- Pin 99 is not in P0's PIN_MAP. -/
theorem test_fits_refuses_pin : (Instr.sinit 0 99 1000 2000 1000).pinFits platformP0 = false ∧
    (Instr.sinit 0 99 1000 2000 1000).fits platformP0 = false := by decide

/-! ## Decoding: words written out field by field, {op, unit, aux, imm16} (R101–R112) -/

theorem test_decode_tsetps :
    decode [0b00010000_0001_0000_0000000000000010] = .ok (.tsetps 1 2, []) := by decide

theorem test_decode_tmoden :
    decode [0b00010001_1111_0000_0000000000000000] = .ok (.tmoden 15, []) := by decide

theorem test_decode_tmodef :
    decode [0b00010010_0010_0000_1001110000111111] = .ok (.tmodef 2 39999, []) := by decide

/-- aux = {inv, mask}: inv is word bit 19, mask bit 0 is word bit 16. -/
theorem test_decode_tsetcmp :
    decode [0b00010011_0001_1001_0000000100000000] = .ok (.tsetcmp 1 0b001 true 256, []) ∧
    decode [0b00010011_0001_0100_0000000100000000] = .ok (.tsetcmp 1 0b100 false 256, []) := by decide

theorem test_decode_tquery :
    decode [0b00010100_0111_0000_0000000000000000] = .ok (.tquery 7, []) := by decide

/-- WB = {max, min}, WI = {0, init}. -/
theorem test_decode_sinit :
    decode [0b00100000_0011_0000_0000000000001001, 0b0000011111010000_0000001111101000,
      0b0000000000000000_0000010111011100] = .ok (.sinit 3 9 1000 2000 1500, []) := by decide

theorem test_decode_ssetpw :
    decode [0b00100001_0001_0000_0000010111011100, 0x14000000] = .ok (.ssetpw 1 1500, [0x14000000]) := by decide

theorem test_decode_ssetang :
    decode [0b00100010_0001_0000_0000000000000000, 0x42340000] = .ok (.ssetang 1 0x42340000, []) := by decide

theorem test_decode_ssetpos :
    decode [0b00100011_0010_0000_0000000000000000, 0x7FC00000] = .ok (.ssetpos 2 0x7FC00000, []) := by decide

theorem test_decode_squery :
    decode [0b00100100_0000_0000_0000000000000000] = .ok (.squery 0, []) := by decide

/-- V4.1 to V4.7: the decode errors, and words still missing. -/
theorem test_decode_rejects :
    decode [0x00000000] = .error .illegalOpcode ∧ decode [0xFFFFFFFF] = .error .illegalOpcode ∧
    decode [0x15000000] = .error .illegalOpcode ∧ decode [0x11010000] = .error .reserved ∧
    decode [0x10100008] = .error .reserved ∧ decode [0x22000001, 0x00000000] = .error .reserved ∧
    decode [0x20000009, 0x07D003E8, 0x000103E8] = .error .reserved ∧
    decode [0x22000001] = .error .incomplete ∧ decode [0x20000009, 0x07D003E8] = .error .incomplete := by decide

/-- No two rows of the opcode map share a byte. -/
theorem test_opcodes_distinct :
    ([Opcode.tsetps, .tmoden, .tmodef, .tsetcmp, .tquery, .sinit, .ssetpw, .ssetang, .ssetpos, .squery].map
      opcodeByte).Nodup := by decide

/-- The opcode table's numbering: a later word's bits count on from the first's, the bits above `nbits` are 0. -/
theorem test_decodeTableWord :
    decodeTableWord 32 0x20000009 = some (.sinit 0 9 0 0 0) ∧
    decodeTableWord 96 (0x20000009 + 0x07D003E8 * 2 ^ 32 + 0x000003E8 * 2 ^ 64) =
      some (.sinit 0 9 1000 2000 1000) ∧
    decodeTableWord 32 0x10100002 = some (.tsetps 1 2) ∧ decodeTableWord 32 0 = none := by decide

/-! ## Steps -/

/-- P5: two words of an SINIT wait in CBUF and are not counted; the reset discards them. -/
theorem test_step_buffers :
    (next? (step (taking [0x20000009] 0x07D003E8))).map (fun s => (s.cbuf, s.csp, s.port)) =
      some ([0x20000009, 0x07D003E8], 0, []) ∧
    (blockReset { State.reset with cbuf := [0x20000009, 0x07D003E8] }).cbuf = [] := by decide

/-- P5 without the reset: the next word is taken as WI and raises RESERVED; CSP is 3. -/
theorem test_step_reserved :
    (next? (step (taking [0x20000009, 0x07D003E8] 0x210005DC))).map (fun s => (s.status, s.csp, s.cbuf, s.trace)) =
      some (0x21, 3, [], []) := by decide

/-- V4.1, V4.16: an illegal word; the first error is kept. -/
theorem test_step_illegal :
    (next? (step (taking [] 0x00000000))).map (fun s => (s.status, s.csp, s.result)) = some (0x11, 1, 0) ∧
    (next? (step { taking [] 0x10300001 with status := 0x11 })).map (·.status) = some 0x11 := by decide

/-- V4.10: RESERVED goes before BAD_UNIT; V4.11: TSETCMP has no reserved field. -/
theorem test_step_priority :
    (next? (step (taking [] 0x11310000))).map (·.status) = some 0x21 ∧
    (next? (step (taking [] 0x13F00000))).map (·.status) = some 0x31 := by decide

/-- The next step after placing a command's bits runs it (V2.1, V4.13's error for SQUERY, a three-word SINIT). -/
theorem test_withFetchWord :
    (next? (step (State.reset.withFetchWord 32 0x10100002))).map (fun s => ((s.timer 1).psStaged, s.csp)) =
      some (.div64, 1) ∧
    (next? (step (State.reset.withFetchWord 32 0x24000000))).map (·.status) = some 0x51 ∧
    (next? (step (State.reset.withFetchWord 32 0x20000009))).map (fun s => ((s.gen 0).valid, (s.gen 0).pw, s.csp)) =
      some (true, 1000, 3) := by decide

/-- A step with nothing on the port changes nothing. -/
theorem test_step_waits : step State.reset = .next State.reset := rfl

/-! ## Timer commands -/

/-- V2.1. -/
theorem test_tsetps_stages :
    (next? (exec (.tsetps 1 2) State.reset)).map (fun s => (s.timer 1, s.trace)) =
      some ({ timerReset with psStaged := .div64 }, []) := by decide

/-- V4.8. -/
theorem test_tsetps_bad_prescaler :
    (next? (exec (.tsetps 1 5) State.reset)).map (fun s => (s.status, s.timer 1)) = some (0x41, timerReset) := by
  decide

/-- V2.2. -/
theorem test_tmoden_16bit :
    (next? (exec (.tmoden 1) (withTimer1 { timerReset with psStaged := .div1024 }))).map (·.trace) =
      some [.ie false, .write 1 .ctrlA (.byte 0x00), .write 1 .ctrlC (.byte 0x00), .write 1 .ctrlB (.byte 0x05),
        .write 1 .cnt (.half 0x0000), .ie true] := by decide

/-- V2.3, and the disconnection of every channel (R143). -/
theorem test_tmoden_8bit :
    (next? (exec (.tmoden 0) (setTimer 0 { timerReset with
        psStaged := .div256, shadow := { timerReset.shadow with comA := 3, comB := 2 } } State.reset))).map
        (fun s => (s.trace, (s.timer 0).shadow.comA, (s.timer 0).mode)) =
      some ([.ie false, .write 0 .ctrlA (.byte 0x00), .write 0 .ctrlB (.byte 0x04), .write 0 .cnt (.byte 0x00),
        .ie true], 0, .normal) := by decide

/-- V2.4. -/
theorem test_tmodef_16bit :
    (next? (exec (.tmodef 1 39999) (withTimer1 { timerReset with psStaged := .div8 }))).map
        (fun s => (s.trace, s.timer 1)) =
      some ([.ie false, .write 1 .icr (.half 0x9C3F), .write 1 .ctrlA (.byte 0x02), .write 1 .ctrlC (.byte 0x00),
        .write 1 .ctrlB (.byte 0x1A), .write 1 .cnt (.half 0x0000), .ie true], fastTimer) := by decide

/-- V2.7: no ICR on an 8-bit timer, TOP recorded. -/
theorem test_tmodef_8bit :
    (next? (exec (.tmodef 0 1234) (setTimer 0 { timerReset with psStaged := .div64 } State.reset))).map
        (fun s => (s.trace, (s.timer 0).top)) =
      some ([.ie false, .write 0 .ctrlA (.byte 0x03), .write 0 .ctrlB (.byte 0x03), .write 0 .cnt (.byte 0x00),
        .ie true], 1234) := by decide

/-- V2.9. -/
theorem test_tsetcmp_two_channels :
    (next? (exec (.tsetcmp 1 0b011 true 256) (withTimer1 fastTimer))).map (·.trace) =
      some [.ie false, .write 1 .ocrA (.half 0x0100), .write 1 .ocrB (.half 0x0100), .write 1 .ctrlA (.byte 0xF2),
        .write 1 .ctrlC (.byte 0x00), .write 1 .ctrlB (.byte 0x1A), .ie true] := by decide

/-- P3 step 3: channel C absent, values truncated, IE stays 0. -/
theorem test_tsetcmp_8bit :
    (next? (exec (.tsetcmp 0 0b111 true 0x1234) (hostSetIE false (setTimer 0 { timerReset with
        shadow := { timerReset.shadow with wgm := 0b011, cs := 0b011 } } State.reset)))).map
        (fun s => (s.trace, s.ie, s.status)) =
      some ([.ie false, .write 0 .ocrA (.byte 0x34), .write 0 .ocrB (.byte 0x34), .write 0 .ctrlA (.byte 0xF3),
        .write 0 .ctrlB (.byte 0x03), .ie false], false, 0x00) := by decide

/-- V2.17, V2.18. -/
theorem test_tquery :
    (next? (exec (.tquery 1) (withTimer1 { fastTimer with psStaged := .div1024 }))).map (·.result) =
      some 0x02419C3F ∧
    (next? (exec (.tquery 0) (setTimer 0 { timerReset with
      psStaged := .div64, psApplied := .div64, mode := .normal } State.reset))).map (·.result) =
      some 0x01220000 := by decide

/-! ## The converter's arithmetic -/

/-- V3.3a, V3.3c, V3.3d, V3.3e, V3.3h, V3.3i: MID, MPD, MPP. -/
theorem test_derived :
    [(544, 2400), (0, 1), (1000, 1089), (1000, 1090), (60000, 65535), (0, 65535)].map (fun b : Half × Half =>
        ((midUs b.1 b.2).toNat, (microsPerDegree b.1 b.2).toNat, (microsPerPercent b.1 b.2).toNat)) =
      [(1472, 10, 19), (1, 0, 0), (1045, 0, 1), (1045, 1, 1), (62768, 31, 55), (32768, 364, 655)] := by decide

/-- V3.6, V3.6a, V3.7, V3.7b, V3.8a, V3.8b: the clocks at the thresholds. -/
theorem test_autoTune :
    [8000000, 26214399, 26214400, 209718399, 3276849, 50].map autoTune =
      [some (.div8, 20000), some (.div8, 65535), some (.div64, 8192), some (.div64, 65536), some (.none, 65536),
       some (.none, 1)] := by decide

/-- V3.9, V3.9b, V3.10, V3.10a. -/
theorem test_autoTune_bad_clocks :
    [3276850, 7999999, 49, 209718400].map autoTune = [none, none, none, none] := by decide

/-- V3.11b, V3.11d, V3.11e, V3.11f, V3.11g, V3.11h. -/
theorem test_ticks :
    [(30000, 1001), (27648, 1000), (10000, 1001), (8192, 1000), (65536, 1000), (40000, 32767)].map
        (fun x : Nat × Nat => ticksOf x.1 x.2) = [1502, 1382, 501, 410, 3277, 65534] := by decide

/-- V3.21, V3.22, V3.22b: halves away from zero, and an inexact binary32. -/
theorem test_angle_rounding :
    [0x3E800000, 0xBE800000, 0x41F0CCCD, 0xC2B40000].map (fun x : Word => match f32 x with
      | .finite q => angleTarget servo q
      | .nan => 0
      | .negInf => 0
      | .posInf => 0) = [1502, 1498, 1681, 960] := by decide

/-- Section 3.5: the exact product of binary32 0.35 and 10 rounds to 3. -/
theorem test_percent_exact :
    (match f32 0x3EB33333 with
      | .finite q => percentTarget servo q
      | .nan => 0
      | .negInf => 0
      | .posInf => 0) = 3 := by decide

/-! ## Generator commands -/

/-- P1 step 1. -/
theorem test_sinit_configures :
    (next? (exec (.sinit 0 9 1000 2000 1000) State.reset)).map (fun s => (s.trace, s.gen 0)) =
      some ([.pinOut 9, .ie false, .write 1 .icr (.half 0x9C3F), .write 1 .ctrlA (.byte 0x02),
        .write 1 .ctrlC (.byte 0x00), .write 1 .ctrlB (.byte 0x1A), .write 1 .cnt (.half 0x0000), .ie true] ++
        std 0x07D0, servo) := by decide

/-- V3.37: the applied prescaler matches, the staged one is ignored; and the defaults of V3.2. -/
theorem test_sinit_matches :
    (next? (exec (.sinit 0 9 2000 1000 0) (withTimer1 { fastTimer with psStaged := .div64 }))).map
        (fun s => (s.trace, s.gen 0)) = some (.pinOut 9 :: std 0x07D0, servo) := by decide

/-- V3.13. -/
theorem test_ssetpw_clamps :
    (next? (exec (.ssetpw 0 2500) driving)).map (fun s => (s.trace, (s.gen 0).pw, s.result)) =
      some (std 0x0FA0, 2000, 1) := by decide

/-- V3.11i under SATURATE. -/
theorem test_ssetpw_saturates :
    (next? (exec (.ssetpw 0 32768) (withGen wideServo))).map (fun s => ((s.gen 0).pw, s.trace)) =
      some (32768, std 0xFFFF) := by decide

/-- V3.15. -/
theorem test_ssetang :
    (next? (exec (.ssetang 0 0x42340000) driving)).map (fun s => (s.trace, (s.gen 0).pw)) =
      some (std 0x0DD4, 1770) := by decide

/-- V3.26: the intermediate 65558 does not wrap. -/
theorem test_ssetang_no_wrap :
    (next? (exec (.ssetang 0 0x42B40000) (withGen { servo with
      minUs := 60000, maxUs := 65535, mid := 62768, mpd := 31, mpp := 55 }))).map (fun s => (s.gen 0).pw) =
      some 65535 := by decide

/-- V3.30: 100% stores MIN for the default bounds; V3.31a: +inf stores MAX. -/
theorem test_ssetpos :
    (next? (exec (.ssetpos 0 0x42C80000) driving)).map (fun s => (s.trace, (s.gen 0).pw)) =
      some (std 0x07D0, 1000) ∧
    (next? (exec (.ssetpos 0 0x7F800000) driving)).map (fun s => (s.gen 0).pw) = some 2000 := by decide

/-- V3.35. -/
theorem test_squery : (next? (exec (.squery 0) driving)).map (·.result) = some 0x000003E8 := by decide

/-- V4.13: every generator command on an unconstructed slot. -/
theorem test_unconstructed :
    [Instr.ssetpw 0 0, .ssetang 0 0, .ssetpos 0 0, .squery 0].map (fun i =>
        (next? (exec i State.reset)).map (·.status)) = [some 0x51, some 0x51, some 0x51, some 0x51] := by decide

/-- V4.14, V4.15: BAD_PIN and BAD_CLOCK have no effect. -/
theorem test_sinit_errors :
    (next? (exec (.sinit 0 99 1000 2000 1000) State.reset)).map (fun s => (s.status, s.trace)) = some (0x61, []) ∧
    (next? (exec (.sinit 0 9 1000 2000 1000) (onPlatform (clocked 4000000) State.reset))).map
        (fun s => (s.status, s.trace, (s.gen 0).valid)) = some (0x71, [], false) := by decide

/-- R150, R151: TMODEF t0, 1234 runs 256 ticks a period on the 8-bit timer; TOP 39999 is 40000 ticks on a 16-bit one. -/
theorem test_pwmPeriod :
    pwmPeriod (State.reset.cfg 0) 1234 = 256 ∧ pwmPeriod (State.reset.cfg 1) 39999 = 40000 := by decide

/-- R76: the bytes of a 16-bit write on an 8-bit bus. -/
theorem test_bus_order :
    busBytes .highThenLow (.half 0x9C3F) = [0x9C, 0x3F] ∧ busBytes .lowThenHigh (.half 0x9C3F) = [0x3F, 0x9C] := by
  decide

/-! ## The hypotheses of the obligations can be met

Each theorem gives a state and operands that meet all hypotheses of the obligation it names; where the obligation
has several clauses, one for each, at the ends of the clause's range. -/

/-- One word, the first and the last word of a two-word command, the second and the last of a three-word one. -/
theorem test_meets_LengthDecodeCollectsWords :
    (CbufOk (taking [] 0x22000000) ∧ ([] : List Word).length + 1 < opLen 0x22) ∧
    (CbufOk (taking [0x22000000] 0x42340000) ∧ [(0x22000000 : Word)].length + 1 = opLen 0x22) ∧
    (CbufOk (taking [0x20000009] 0x07D003E8) ∧ [(0x20000009 : Word)].length + 1 < opLen 0x20) ∧
    (CbufOk (taking [0x20000009, 0x07D003E8] 0) ∧ [(0x20000009 : Word), 0x07D003E8].length + 1 = opLen 0x20) ∧
    (CbufOk (taking [] 0x10100002) ∧ ([] : List Word).length + 1 = opLen 0x10) ∧
    (taking [] 0x22000000).port = 0x22000000 :: [] := by decide

theorem test_meets_EncodeOfDecode :
    decode [0x2010000A, 0x09600220, 0x000005C0, 0x14000000] = .ok (.sinit 1 10 544 2400 1472, [0x14000000]) := by
  decide

/-- Both ends of the three illegal ranges. -/
theorem test_meets_IllegalOpcodesRaise :
    (taking [] 0x00000000).cbuf = [] ∧ (taking [] 0x00000000).port = 0x00000000 :: [] ∧
    (opField 0x00000000).toNat ≤ 0x0F ∧ (opField 0x0FFFFFFF).toNat ≤ 0x0F ∧
    (0x15 ≤ (opField 0x15000000).toNat ∧ (opField 0x1F000000).toNat ≤ 0x1F) ∧
    0x25 ≤ (opField 0x25000000).toNat ∧ 0x25 ≤ (opField 0xFFFFFFFF).toNat := by decide

/-- A command of each opcode with one reserved bit set; TSETCMP has none. -/
theorem test_meets_ReservedFieldsRaise :
    (∀ x ∈ [(Opcode.tsetps, [(0x10100008 : Word)]), (.tsetps, [0x10180000]), (.tmoden, [0x11010000]),
        (.tmoden, [0x11000001]), (.tmodef, [0x12080000]), (.tquery, [0x14010000]), (.tquery, [0x14008000]),
        (.sinit, [0x20010009, 0, 0]), (.sinit, [0x20000009, 0, 0x00010000]), (.ssetpw, [0x21080000]),
        (.ssetang, [0x22010000, 0]), (.ssetang, [0x22000001, 0]), (.ssetpos, [0x23080000, 0]),
        (.ssetpos, [0x23008000, 0]), (.squery, [0x24010000]), (.squery, [0x24000001])],
      opField (x.2.headD 0) = opcodeByte x.1 ∧ x.2.length = opLen (opcodeByte x.1) ∧
        (auxField (x.2.headD 0) ≠ 0 ∨ (x.2.headD 0).extractLsb' 3 13 ≠ 0 ∨ immField (x.2.headD 0) ≠ 0 ∨
          highHalf (x.2.getD 2 0) ≠ 0)) ∧
    (taking [0x20000009, 0] 0x00010000).cbuf ++ [0x00010000] = [0x20000009, 0, 0x00010000] := by decide

theorem test_meets_StepRunsDecodedCommand :
    (taking [0x22000000] 0x42340000).port = 0x42340000 :: [] ∧
    decode ((taking [0x22000000] 0x42340000).cbuf ++ [0x42340000]) = .ok (.ssetang 0 0x42340000, []) := by decide

theorem test_meets_EveryStepAnswers : State.reset.port = [] := rfl

/-- A word buffered, an erroneous command, a command executed. -/
theorem test_meets_PositionCountsWords :
    (CbufOk (taking [0x20000009] 0x07D003E8) ∧ ∃ s', step (taking [0x20000009] 0x07D003E8) = .next s') ∧
    (CbufOk (taking [] 0x00000000) ∧ ∃ s', step (taking [] 0x00000000) = .next s') ∧
    (CbufOk (taking [] 0x10100002) ∧ ∃ s', step (taking [] 0x10100002) = .next s') ∧
    (taking [] 0x10100002).port ≠ [] :=
  ⟨⟨by decide, _, rfl⟩, ⟨by decide, _, rfl⟩, ⟨by decide, _, rfl⟩, by decide⟩

/-- A decode error and an error of a command. -/
theorem test_meets_ErrorHasNoOtherEffect :
    (CbufOk (taking [] 0x00000000) ∧ ∃ s', step (taking [] 0x00000000) = .next s' ∧
      s'.status ≠ (taking [] 0x00000000).status) ∧
    (CbufOk (taking [0x22000000] 0) ∧ ∃ s', step (taking [0x22000000] 0) = .next s' ∧
      s'.status ≠ (taking [0x22000000] 0).status) :=
  ⟨⟨by decide, _, rfl, by decide⟩, by decide, _, rfl, by decide⟩

theorem test_meets_FirstErrorIsKept :
    ({ taking [] 0x10300001 with status := 0x11 } : State).status.getLsbD 0 = true ∧
    ∃ s', step { taking [] 0x10300001 with status := 0x11 } = .next s' :=
  ⟨by decide, _, rfl⟩

/-- The first absent timer and slot, the first and the last code without a prescaler, an unconstructed slot, an
unmapped pin, and the ends of the three ranges of clocks. -/
theorem test_meets_ErrorCausesAndPriority :
    (Instr.tmoden 3).unitFits State.reset.platform = false ∧
    (Instr.squery 4).unitFits State.reset.platform = false ∧
    (2 < State.reset.platform.numTimers ∧ 5 ≤ (5 : BitVec 3).toNat ∧ 5 ≤ (7 : BitVec 3).toNat) ∧
    (3 < State.reset.platform.numGenerators ∧ (State.reset.gen 3).valid = false) ∧
    State.reset.platform.pinMap.lookup 99 = none ∧ State.reset.platform.pinMap.lookup 9 = some (1, .A) ∧
    (∀ f ∈ [1, 49], f < 50 ∧ ((onPlatform (clocked f) State.reset).cfg 1).fclk = f) ∧
    (∀ f ∈ [3276850, 7999999], 3276850 ≤ f ∧ f < 8000000 ∧
      ((onPlatform (clocked f) State.reset).cfg 1).fclk = f) ∧
    209718400 ≤ ((onPlatform (clocked 209718400) State.reset).cfg 1).fclk := by decide

/-- Each writer changes RESULT in a state where RESULT is 0, and so does a step. -/
theorem test_meets_ResultRegisterWriters :
    (∃ s', exec (.tquery 1) driving = .next s' ∧ s'.result ≠ driving.result) ∧
    (∃ s', exec (.ssetpw 0 1500) driving = .next s' ∧ s'.result ≠ driving.result) ∧
    (∃ s', exec (.ssetang 0 0) driving = .next s' ∧ s'.result ≠ driving.result) ∧
    (∃ s', exec (.ssetpos 0 0) driving = .next s' ∧ s'.result ≠ driving.result) ∧
    (∃ s', exec (.squery 0) driving = .next s' ∧ s'.result ≠ driving.result) ∧
    ∃ s', step { driving with port := [0x24000000] } = .next s' ∧ s'.result ≠ driving.result :=
  ⟨⟨_, rfl, by decide⟩, ⟨_, rfl, by decide⟩, ⟨_, rfl, by decide⟩, ⟨_, rfl, by decide⟩, ⟨_, rfl, by decide⟩,
    _, rfl, by decide⟩

/-- The timer commands' hypothesis: the last timer of P0, 16-bit with two channels; an 8-bit one; one with three. -/
theorem test_meets_timer_exists :
    ((2 : UnitNo).val < State.reset.platform.numTimers ∧ (State.reset.cfg 2).is16 = true ∧
      (State.reset.cfg 2).nch = .two) ∧
    ((0 : UnitNo).val < State.reset.platform.numTimers ∧ (State.reset.cfg 0).is16 = false) ∧
    ((1 : UnitNo).val < State.reset.platform.numTimers ∧ (State.reset.cfg 1).nch = .three) := by decide

theorem test_meets_TsetpsStagesPrescaler : (2 : UnitNo).val < State.reset.platform.numTimers := by decide

theorem test_meets_TmodenSetsNormalMode : (0 : UnitNo).val < State.reset.platform.numTimers := by decide

theorem test_meets_TmodefSetsFastPwm : (1 : UnitNo).val < State.reset.platform.numTimers := by decide

theorem test_meets_TsetcmpWritesCompare : (2 : UnitNo).val < State.reset.platform.numTimers := by decide

theorem test_meets_TqueryReportsConfiguration : (0 : UnitNo).val < State.reset.platform.numTimers := by decide

/-- A 16-bit timer with two channels and an 8-bit timer. -/
theorem test_meets_AbsentChannelIgnored :
    ((2 : UnitNo).val < State.reset.platform.numTimers ∧
      ¬ ((State.reset.cfg 2).is16 = true ∧ (State.reset.cfg 2).nch = .three)) ∧
    ((0 : UnitNo).val < State.reset.platform.numTimers ∧
      ¬ ((State.reset.cfg 0).is16 = true ∧ (State.reset.cfg 0).nch = .three)) := by decide

/-- The empty mask on a timer with three channels, and channel C alone on one with two. -/
theorem test_meets_EmptyMaskStillCommits :
    ((1 : UnitNo).val < State.reset.platform.numTimers ∧ (0b000 : BitVec 3) = 0) ∧
    ((2 : UnitNo).val < State.reset.platform.numTimers ∧ (0b100 : BitVec 3) = 0b100 ∧
      ¬ ((State.reset.cfg 2).is16 = true ∧ (State.reset.cfg 2).nch = .three)) := by decide

theorem test_meets_StagedPrescalerInertForCompare : (1 : UnitNo).val < State.reset.platform.numTimers := by decide

/-- A mode-set that changes MODE, PS_APPLIED and TOP, and a TSETPS that changes PS_STAGED. -/
theorem test_meets_ConfigurationWriters :
    (∃ s', exec (.tmodef 1 39999) (withTimer1 { timerReset with psStaged := .div8 }) = .next s' ∧
      (s'.timer 1).mode ≠ .unconfigured ∧ (s'.timer 1).psApplied ≠ .none ∧ (s'.timer 1).top ≠ 0) ∧
    ∃ s', exec (.tsetps 1 2) State.reset = .next s' ∧ (s'.timer 1).psStaged ≠ (State.reset.timer 1).psStaged :=
  ⟨⟨_, rfl, by decide, by decide, by decide⟩, _, rfl, by decide⟩

/-- Each timer command completes somewhere, and one that does not fit. -/
theorem test_meets_TimerCommandFrame :
    (∀ i ∈ [Instr.tsetps 1 4, .tmoden 0, .tmodef 1 0xFFFF, .tsetcmp 2 7 true 0, .tquery 2],
      i.fits State.reset.platform = true ∧ (next? (exec i State.reset)).isSome = true) ∧
    (∀ i ∈ [Instr.tsetps 1 5, .tmoden 3], i.fits State.reset.platform = false ∧
      (next? (exec i State.reset)).isSome = true) := by decide

/-- A step that writes, with IE = 1. -/
theorem test_meets_InterruptEnableRestored :
    ∃ s', step (taking [] 0x11100000) = .next s' ∧ Event.ie true ∈ s'.trace ∧ (taking [] 0x11100000).ie = true :=
  ⟨_, rfl, by decide, by decide⟩

theorem test_meets_WritesOnlyInCriticalSections :
    ∃ s', step (taking [0x20000009, 0x07D003E8] 0x000003E8) = .next s' ∧ s'.trace.length = 14 :=
  ⟨_, rfl, by decide⟩

/-- A step that writes, from a state on a well-formed platform whose slots are as constructed. -/
theorem test_meets_RegisterWritesFitTimer :
    (∃ s', step (taking [] 0x11100000) = .next s' ∧
      Event.write 1 .cnt (.half 0) ∈ s'.trace) ∧
    PlatformOk (taking [] 0x11100000).platform ∧ GensOk (taking [] 0x11100000) :=
  ⟨⟨_, rfl, by decide⟩, by decide, by decide⟩

/-- A 16-bit and an 8-bit timer, and a constructed slot. -/
theorem test_meets_EventCounts :
    (1 : UnitNo).val < driving.platform.numTimers ∧ (driving.cfg 1).is16 = true ∧
    (0 : UnitNo).val < driving.platform.numTimers ∧ (driving.cfg 0).is16 = false ∧
    (0 : UnitNo).val < driving.platform.numGenerators ∧ (driving.gen 0).valid = true := by decide

/-- Halves on both sides of 0, and 0. -/
theorem test_meets_RoundingHalvesAway :
    0 < 2 ∧ (0 : Int) ≤ 0 ∧ (0 : Int) ≤ 3 ∧ (-3 : Int) < 0 ∧ rnd 3 2 = 2 ∧ rnd (-3) 2 = -2 ∧ rnd 0 2 = 0 := by decide

/-- A NaN, both infinities, a zero, a subnormal, the largest and the smallest normal number. -/
theorem test_meets_Binary32Value :
    ((0x7F800001 : Word).extractLsb' 23 8).toNat = 255 ∧ ((0x7F800001 : Word).extractLsb' 0 23).toNat ≠ 0 ∧
    f32 0x7F800001 = .nan ∧
    ((0xFF800000 : Word).extractLsb' 23 8).toNat = 255 ∧ ((0xFF800000 : Word).extractLsb' 0 23).toNat = 0 ∧
    f32 0xFF800000 = .negInf ∧ f32 0x7F800000 = .posInf ∧
    ((0x00000000 : Word).extractLsb' 23 8).toNat ≠ 255 ∧ ((0x00000001 : Word).extractLsb' 23 8).toNat ≠ 255 ∧
    ((0x00800000 : Word).extractLsb' 23 8).toNat ≠ 255 ∧ ((0x7F7FFFFF : Word).extractLsb' 23 8).toNat ≠ 255 ∧
    f32 0x42340000 = .finite { num := 11796480, den := 262144 } := by decide

/-- Spans of 1, 49, 50, 89, 90 and the whole range. -/
theorem test_meets_DerivedValues :
    (0 : Half).toNat < (1 : Half).toNat ∧ (1000 : Half).toNat < (1049 : Half).toNat ∧
    (1000 : Half).toNat < (1050 : Half).toNat ∧ (1000 : Half).toNat < (1089 : Half).toNat ∧
    (1000 : Half).toNat < (1090 : Half).toNat ∧ (0 : Half).toNat < (65535 : Half).toNat := by decide

/-- The clocks where the selection changes. -/
theorem test_meets_AutoTuneSelection :
    autoTune 26214400 = some (.div64, 8192) ∧ 0xFFFF < 26214400 / 400 ∧
    autoTune 3276849 = some (.none, 65536) ∧ 3276849 / 400 < 20000 ∧
    autoTune 8000000 = some (.div8, 20000) ∧ 20000 ≤ 8000000 / 400 ∧ 8000000 / 400 ≤ 0xFFFF ∧
    autoTune 26214399 = some (.div8, 65535) := by decide

/-- Both ends of the domain, with the widest bounds. -/
theorem test_meets_AngleIntermediateRange :
    ∀ n ∈ [(-90 : Int), 90], (0 : Half).toNat < (65535 : Half).toNat ∧ 0 < 1 ∧ -90 * ((1 : Nat) : Int) ≤ n ∧
      n ≤ 90 * ((1 : Nat) : Int) := by decide

/-- Bounds that are kept and bounds that are replaced, on the last slot. -/
theorem test_meets_SinitConstructsGenerator :
    (3 : UnitNo).val < State.reset.platform.numGenerators ∧
    State.reset.platform.pinMap.lookup 9 = some (1, .A) ∧
    autoTune (State.reset.cfg 1).fclk = some (.div8, 40000) ∧
    ¬ (2000 : Half).toNat ≤ (1000 : Half).toNat ∧ (1500 : Half).toNat ≤ (1500 : Half).toNat := by decide

/-- A timer still to be configured, and one configured as the auto-tune asks. -/
theorem test_meets_SinitIsCommandSequence :
    (0 : UnitNo).val < State.reset.platform.numGenerators ∧
    State.reset.platform.pinMap.lookup 9 = some (1, .A) ∧ (1 : UnitNo).val < State.reset.platform.numTimers ∧
    autoTune (State.reset.cfg 1).fclk = some (.div8, 40000) ∧
    ¬ (State.reset.timer 1).mode = .fastPwm ∧
    ((withTimer1 fastTimer).timer 1).mode = .fastPwm ∧ ((withTimer1 fastTimer).timer 1).psApplied = .div8 ∧
    ((withTimer1 fastTimer).timer 1).top.toNat = 40000 - 1 := by decide

/-- An SINIT on a 16-bit timer and one on an 8-bit timer. -/
theorem test_meets_SinitPeriod :
    (State.reset.platform.pinMap.lookup 9 = some (1, .A) ∧ (State.reset.cfg 1).is16 = true ∧
      autoTune (State.reset.cfg 1).fclk = some (.div8, 40000) ∧
      ∃ s', exec (.sinit 0 9 1000 2000 1000) State.reset = .next s') ∧
    (State.reset.platform.pinMap.lookup 6 = some (0, .A) ∧ (State.reset.cfg 0).is16 = false ∧
      autoTune (State.reset.cfg 0).fclk = some (.div8, 40000) ∧
      ∃ s', exec (.sinit 3 6 1000 2000 1000) State.reset = .next s') ∧
    (0 : UnitNo).val < State.reset.platform.numGenerators ∧ (3 : UnitNo).val < State.reset.platform.numGenerators :=
  ⟨⟨by decide, by decide, by decide, _, rfl⟩, ⟨by decide, by decide, by decide, _, rfl⟩, by decide, by decide⟩

theorem test_meets_RepeatedSinitKeepsTimer :
    ∃ s₁ s₂, exec (.sinit 0 9 1000 2000 1000) State.reset = .next s₁ ∧ s₁.status = State.reset.status ∧
      State.reset.status.getLsbD 0 = false ∧ exec (.sinit 1 9 544 2400 1472) s₁ = .next s₂ :=
  ⟨_, _, rfl, by decide, by decide, rfl⟩

/-- Under each policy; widths below, in and above the bounds, and tick counts at both sides of 0xFFFF. -/
theorem test_meets_SsetpwWritesPulse :
    (∀ p ∈ [platformP0, drawing],
      let s := onPlatform p (withGen wideServo)
      (0 : UnitNo).val < s.platform.numGenerators ∧ (s.gen 0).valid = true ∧
      (s.gen 0).timer.val < s.platform.numTimers) ∧
    ((999 : Half).toNat < wideServo.minUs.toNat ∧ servo.maxUs.toNat < (2001 : Half).toNat) ∧
    (2 * wideServo.n.toNat * 32767 + 20000) / 40000 ≤ 0xFFFF ∧
    0xFFFF < (2 * wideServo.n.toNat * 32768 + 20000) / 40000 ∧
    (onPlatform platformP0 (withGen wideServo)).platform.overrange = .saturate ∧
    (onPlatform drawing (withGen wideServo)).platform.overrange = .any := by decide

/-- The first over-range width of N = 40000, under each policy. -/
theorem test_meets_OverrangeTicks :
    ∀ p ∈ [platformP0, drawing],
      let s := onPlatform p (withGen wideServo)
      (0 : UnitNo).val < s.platform.numGenerators ∧ (s.gen 0).valid = true ∧
      chanPresent (s.cfg (s.gen 0).timer) (s.gen 0).ch = true ∧
      (s.gen 0).minUs.toNat ≤ (32768 : Half).toNat ∧ (32768 : Half).toNat ≤ (s.gen 0).maxUs.toNat ∧
      0xFFFF < (2 * (s.gen 0).n.toNat * (32768 : Half).toNat + 20000) / 40000 := by decide

/-- Both infinities, both ends of the domain, and the nearest values outside it. -/
theorem test_meets_SsetangWritesPulse :
    ((0 : UnitNo).val < driving.platform.numGenerators ∧ (driving.gen 0).valid = true ∧
      (driving.gen 0).minUs.toNat ≤ (driving.gen 0).maxUs.toNat) ∧
    f32 0xFF800000 = .negInf ∧ f32 0x7F800000 = .posInf ∧
    f32 0x42B40000 = .finite { num := 90 * 2 ^ 17, den := 2 ^ 17 } ∧
    f32 0xC2B40000 = .finite { num := -90 * 2 ^ 17, den := 2 ^ 17 } ∧
    f32 0x42B40001 = .finite { num := 90 * 2 ^ 17 + 1, den := 2 ^ 17 } ∧
    f32 0xC2B40001 = .finite { num := -90 * 2 ^ 17 - 1, den := 2 ^ 17 } := by decide

/-- Both infinities, 0, -0, 100, and the nearest values outside the domain. -/
theorem test_meets_SsetposWritesPulse :
    ((0 : UnitNo).val < driving.platform.numGenerators ∧ (driving.gen 0).valid = true ∧
      (driving.gen 0).minUs.toNat ≤ (driving.gen 0).maxUs.toNat) ∧
    f32 0xFF800000 = .negInf ∧ f32 0x7F800000 = .posInf ∧
    f32 0x00000000 = .finite { num := 0, den := 2 ^ 149 } ∧ f32 0x80000000 = .finite { num := 0, den := 2 ^ 149 } ∧
    f32 0x80000001 = .finite { num := -1, den := 2 ^ 149 } ∧
    f32 0x42C80000 = .finite { num := 100 * 2 ^ 17, den := 2 ^ 17 } ∧
    f32 0x42C80001 = .finite { num := 100 * 2 ^ 17 + 1, den := 2 ^ 17 } := by decide

theorem test_meets_NanWidthIsBoundedDraw :
    (0 : UnitNo).val < driving.platform.numGenerators ∧ (driving.gen 0).valid = true ∧
    (driving.gen 0).minUs.toNat ≤ (driving.gen 0).maxUs.toNat ∧ f32 0x7FC00000 = .nan ∧ f32 0xFF800001 = .nan := by
  decide

/-- Percentages 0 and 100 on the default bounds, where 100% misses MAX; bounds from 0, where it reaches MAX; and
bounds whose MPP is 0. -/
theorem test_meets_SsetposEndpoints :
    ((0 : UnitNo).val < driving.platform.numGenerators ∧ (driving.gen 0).valid = true ∧
      (driving.gen 0).minUs.toNat < (driving.gen 0).maxUs.toNat ∧
      ¬ (driving.gen 0).maxUs.toNat ≤ 100 * (driving.gen 0).mpp.toNat) ∧
    (∃ q, f32 0 = .finite q ∧ q.num = 0) ∧ (∃ q, f32 0x42C80000 = .finite q ∧ q.num = 100 * (q.den : Int)) ∧
    ((0 : Half).toNat < (1000 : Half).toNat ∧ (1000 : Half).toNat ≤ 100 * (microsPerPercent 0 1000).toNat) ∧
    microsPerPercent 1000 1049 = 0 :=
  ⟨by decide, ⟨_, rfl, by decide⟩, ⟨_, rfl, by decide⟩, by decide, by decide⟩

theorem test_meets_SqueryReadsWidth :
    (0 : UnitNo).val < driving.platform.numGenerators ∧ (driving.gen 0).valid = true := by decide

/-- Under SATURATE, and under ANY with the widest width of N = 40000 that is in range, on a slot whose MAX is not. -/
theorem test_meets_RepeatedWidthWriteIsIdentical :
    (driving.platform.overrange = .saturate ∧
      ∃ s₁ s₂, exec (.ssetpw 0 1500) driving = .next s₁ ∧ exec (.ssetpw 0 1500) s₁ = .next s₂) ∧
    ((onPlatform drawing (withGen wideServo)).platform.overrange = .any ∧
      ¬ (32767 : Half).toNat < wideServo.minUs.toNat ∧ ¬ wideServo.maxUs.toNat < (32767 : Half).toNat ∧
      (2 * wideServo.n.toNat * (32767 : Half).toNat + 20000) / 40000 ≤ 0xFFFF ∧
      0xFFFF < (2 * wideServo.n.toNat * wideServo.maxUs.toNat + 20000) / 40000 ∧
      ∃ s₁ s₂, exec (.ssetpw 0 32767) (onPlatform drawing (withGen wideServo)) = .next s₁ ∧
        exec (.ssetpw 0 32767) s₁ = .next s₂) :=
  ⟨⟨by decide, _, _, rfl, rfl⟩, by decide, by decide, by decide, by decide, by decide, _, _, rfl, rfl⟩

/-- A width command on the slot, and an SINIT on another slot. -/
theorem test_meets_GeneratorFieldsFrozen :
    (∃ s', exec (.ssetpw 0 1500) driving = .next s' ∧ (s'.gen 0).pw ≠ (driving.gen 0).pw) ∧
    (∃ s', exec (.sinit 1 9 544 2400 1472) driving = .next s') ∧
    ∀ pin mn mx init, Instr.sinit 1 9 544 2400 1472 ≠ .sinit 0 pin mn mx init :=
  ⟨⟨_, rfl, by decide⟩, ⟨_, rfl⟩, by simp⟩

/-- Each of the four commands on a constructed slot. -/
theorem test_meets_GeneratorCommandFrame :
    ∀ i ∈ [Instr.ssetpw 0 1500, .ssetang 0 0x42340000, .ssetpos 0 0x42480000, .squery 0],
      (next? (exec i driving)).isSome = true ∧ i.fits driving.platform = true ∧ (driving.gen 0).valid = true := by
  decide

/-- An SINIT that completes, and one that raises. -/
theorem test_meets_SinitFrame :
    (∃ s', exec (.sinit 0 9 1000 2000 1000) State.reset = .next s') ∧
    State.reset.platform.pinMap.lookup 9 = some (1, .A) ∧
    ∃ s', exec (.sinit 0 99 1000 2000 1000) State.reset = .next s' ∧ s'.status ≠ State.reset.status :=
  ⟨⟨_, rfl⟩, by decide, _, rfl, by decide⟩

theorem test_meets_StepKeepsInterfaceState :
    CbufOk (taking [0x20000009] 0) ∧ StatusOk (taking [0x20000009] 0) ∧
    ∃ s', step (taking [0x20000009] 0) = .next s' :=
  ⟨by decide, by decide, _, rfl⟩

/-- The reset records, about to be changed by a mode-set. -/
theorem test_meets_StepKeepsTimerRecords :
    TimersOk (taking [] 0x11100000) ∧ ∃ s', step (taking [] 0x11100000) = .next s' ∧
      s'.timers ≠ (taking [] 0x11100000).timers :=
  ⟨by decide, _, rfl, by decide⟩

/-- A constructed slot, about to be changed by an SSETPW. -/
theorem test_meets_StepKeepsGenerators :
    GensOk { driving with port := [0x210005DC] } ∧
    ∃ s', step { driving with port := [0x210005DC] } = .next s' ∧ s'.gens ≠ driving.gens :=
  ⟨by decide, _, rfl, by decide⟩

/-- The reset state, about to be changed by a mode-set that writes ICR. -/
theorem test_meets_StepKeepsPeripheralMirror :
    MirrorOk (taking [] 0x12109C3F) ∧ ∃ s', step (taking [] 0x12109C3F) = .next s' ∧
      lastWrite 1 .icr s'.trace ≠ none ∧ lastWrite 1 .ctrlC s'.trace = some (.byte 0x00) :=
  ⟨by decide, _, rfl, by decide, by decide⟩

end Sys2Proof.Tests
end

section
/-! The family of 00_scope.md: rounding (R21), the value of a binary32 pattern (R23), and the fast-PWM period an SINIT
leaves (R15, R150, R151, R190). -/

namespace Sys2Proof.Machine

/-! ## Rounding (R21) -/

theorem rnd_of_nonneg {a : Int} (h : 0 ≤ a) (b : Nat) : rnd a b = (2 * a + b) / (2 * b) := if_pos h

theorem rnd_of_neg {a : Int} (h : a < 0) (b : Nat) : rnd a b = -((2 * -a + b) / (2 * b)) := if_neg h.not_ge

/-- The integer form of rounding half up: both sides are the floor of `(2a + b) / 2b`. -/
theorem floor_div_add_half (a : Int) {b : Nat} (hb : 0 < b) :
    ⌊(a : ℚ) / b + 1 / 2⌋ = (2 * a + b) / (2 * b) := by
  have common : (a : ℚ) / b + 1 / 2 = ((2 * a + b : Int) : ℚ) / ((2 * b : Nat) : ℚ) := by
    have : (b : ℚ) ≠ 0 := by positivity
    push_cast
    field_simp
  rw [common, Rat.floor_intCast_div_natCast]
  push_cast
  rfl

/-! ## binary32 (R23) -/

/-- The integer significand of a pattern with exponent field `e` and fraction `f`: the hidden bit is missing from the
subnormals. -/
def significand (e f : Nat) : Nat := if e = 0 then f else 2 ^ 23 + f

/-- The exponent field in effect: the subnormals share that of the smallest normal numbers. -/
def effectiveExponent (e : Nat) : Nat := if e = 0 then 1 else e

/-- `±m · 2^(k - 150)` as the model's exact rational, the power of two in the numerator or the denominator. -/
def scaledRatio (neg : Bool) (m k : Nat) : Ratio :=
  { num := (if neg then -(m : Int) else m) * (2 ^ (k - 150) : Nat), den := 2 ^ (150 - k) }

theorem f32_of_nan {w : Word} (he : (w.extractLsb' 23 8).toNat = 255) (hf : (w.extractLsb' 0 23).toNat ≠ 0) :
    f32 w = .nan := by
  simp only [f32, if_pos he, if_pos hf]

theorem f32_of_infinity {w : Word} (he : (w.extractLsb' 23 8).toNat = 255) (hf : (w.extractLsb' 0 23).toNat = 0) :
    f32 w = if w.getLsbD 31 then .negInf else .posInf := by
  simp only [f32, if_pos he, if_neg (not_not.mpr hf)]

theorem f32_of_finite {w : Word} (he : (w.extractLsb' 23 8).toNat ≠ 255) :
    f32 w = .finite (scaledRatio (w.getLsbD 31)
      (significand (w.extractLsb' 23 8).toNat (w.extractLsb' 0 23).toNat)
      (effectiveExponent (w.extractLsb' 23 8).toNat)) := by
  simp only [f32, if_neg he, scaledRatio, significand, effectiveExponent]

theorem scaledRatio_num (neg : Bool) (m k : Nat) :
    (scaledRatio neg m k).num = (if neg then -(m : Int) else m) * (2 ^ (k - 150) : Nat) := rfl

theorem scaledRatio_den (neg : Bool) (m k : Nat) : (scaledRatio neg m k).den = 2 ^ (150 - k) := rfl

theorem scaledRatio_den_pos (neg : Bool) (m k : Nat) : 0 < (scaledRatio neg m k).den := Nat.two_pow_pos _

/-- Of the two truncated exponents `k - 150` and `150 - k` one is 0 and the other the distance, so that their quotient
is the integer power. -/
theorem two_pow_sub_div_two_pow_sub (k : Nat) :
    (2 : ℚ) ^ (k - 150) / 2 ^ (150 - k) = 2 ^ ((k : ℤ) - 150) := by
  have distance : ((k - 150 : Nat) : ℤ) - (150 - k : Nat) = k - 150 := by omega
  rw [← distance, zpow_sub₀ two_ne_zero, zpow_natCast, zpow_natCast]

theorem scaledRatio_value (neg : Bool) (m k : Nat) :
    ((scaledRatio neg m k).num : ℚ) / (scaledRatio neg m k).den =
      (if neg then -1 else 1) * m * 2 ^ ((k : ℤ) - 150) := by
  rw [scaledRatio_num, scaledRatio_den, ← two_pow_sub_div_two_pow_sub]
  push_cast
  cases neg <;> simp [mul_div_assoc, neg_div]

/-- 150 is the bias 127 and the 23 bits of the fraction. -/
theorem two_pow_sub_fraction (k : Nat) : (2 : ℚ) ^ ((k : ℤ) - 150) = 2 ^ ((k : ℤ) - 127) / 2 ^ 23 := by
  have exponent : (k : ℤ) - 150 = (k : ℤ) - 127 - (23 : Nat) := by omega
  rw [exponent, zpow_sub₀ two_ne_zero, zpow_natCast]

/-- The value of a finite pattern in the form of IEEE 754: bias 127, 23 fraction bits. -/
theorem significand_value (e f : Nat) :
    (significand e f : ℚ) * 2 ^ ((effectiveExponent e : ℤ) - 150) =
      if e = 0 then (f : ℚ) / 2 ^ 23 * 2 ^ (-126 : ℤ) else (1 + (f : ℚ) / 2 ^ 23) * 2 ^ ((e : ℤ) - 127) := by
  rw [two_pow_sub_fraction]
  unfold significand effectiveExponent
  split
  · have bias : ((1 : Nat) : ℤ) - 127 = -126 := by norm_num
    rw [bias]
    ring
  · push_cast
    ring

/-! ## The timer an SINIT leaves (R150, R191, R198) -/

/-- A compare write changes nothing of a timer's record but the shadow, on whatever timer (R162). -/
theorem timer_compareWrite (t u : UnitNo) (mask : BitVec 3) (inv : Bool) (v : Half) (s : State) :
    ∃ sh, (compareWrite t mask inv v s).timer u = { s.timer u with shadow := sh } := by
  rw [compareWrite_eq]
  by_cases h : u = t
  · subst h
    exact ⟨_, timer_setTimer_self s u _⟩
  · exact ⟨(s.timer u).shadow, timer_setTimer_ne s h _⟩

/-- A pulse write changes nothing of a timer's record but the shadow. -/
theorem timer_pulseWrite (g : UnitNo) (x : Int) (u : UnitNo) (s : State) :
    ∃ sh, (pulseWrite g x s).timer u = { s.timer u with shadow := sh } := by
  rw [pulseWrite_eq]
  exact timer_compareWrite _ _ _ _ _ _

@[simp] theorem pulseWrite_platform (g : UnitNo) (x : Int) (s : State) : (pulseWrite g x s).platform = s.platform := by
  rw [pulseWrite_eq]
  simp only [compareWrite_eq]

@[simp] theorem modeFast_platform (t : UnitNo) (top : Half) (s : State) : (modeFast t top s).platform = s.platform := by
  rw [modeFast_eq, modeSet_eq]

theorem timer_modeFast (t : UnitNo) (top : Half) (s : State) :
    ((modeFast t top s).timer t).mode = .fastPwm ∧ ((modeFast t top s).timer t).top = top := by
  rw [modeFast_eq, modeSet_eq]
  simp [State.timer]

@[simp] theorem configureTimer_platform (t : UnitNo) (p : Prescaler) (n : Nat) (s : State) :
    (configureTimer t p n s).platform = s.platform := by
  unfold configureTimer
  split
  · rfl
  · exact modeFast_platform _ _ _

/-- Whether it finds the timer configured or programs it, an SINIT's configuration leaves fast PWM with TOP `n - 1`
(R191). -/
theorem timer_configureTimer (t : UnitNo) (p : Prescaler) (n : Nat) (s : State) :
    ((configureTimer t p n s).timer t).mode = .fastPwm ∧
      ((configureTimer t p n s).timer t).top = BitVec.ofNat 16 (n - 1) := by
  unfold configureTimer
  split
  next matched =>
    simp only [configured, Bool.and_eq_true, decide_eq_true_eq] at matched
    obtain ⟨⟨mode, -⟩, top⟩ := matched
    exact ⟨mode, top⟩
  next => exact timer_modeFast _ _ _

@[simp] theorem constructGenerator_platform (g : UnitNo) (pin mn mx init : Half) (t : UnitNo) (ch : Channel)
    (p : Prescaler) (n : Nat) (s : State) : (constructGenerator g pin mn mx init t ch p n s).platform = s.platform := by
  simp [constructGenerator]

theorem timer_constructGenerator (g : UnitNo) (pin mn mx init : Half) (t : UnitNo) (ch : Channel) (p : Prescaler)
    (n : Nat) (s : State) :
    ((constructGenerator g pin mn mx init t ch p n s).timer t).mode = .fastPwm ∧
      ((constructGenerator g pin mn mx init t ch p n s).timer t).top = BitVec.ofNat 16 (n - 1) := by
  unfold constructGenerator
  obtain ⟨sh, pulsed⟩ := timer_pulseWrite g init.toNat t (configureTimer t p n
    (emit (.pinOut pin) (setGen g (newGenerator pin mn mx t ch n (s.gen g).pw) s)))
  rw [pulsed]
  exact timer_configureTimer _ _ _ _

/-- The period of a timer given TOP `n - 1`: `n` ticks where the timer takes a TOP, 256 where it is `TOP8` (R150,
R151). -/
theorem pwmPeriod_pred (c : TimerCfg) {n : Nat} (h1 : 1 ≤ n) (h2 : n ≤ 65536) :
    pwmPeriod c (BitVec.ofNat 16 (n - 1)) = if c.is16 then n else 256 := by
  cases h : c.is16
  · simp [pwmPeriod, topInForce, h, Config.top8]
  · simp [pwmPeriod, topInForce, h]
    omega

end Sys2Proof.Machine

open Sys2Proof.Machine

/-- Settles O31: both signs reduce to the floor of `(2|a| + b) / 2b`. -/
theorem roundingHalvesAway : Obligations.RoundingHalvesAway := by
  intro a b hb
  refine ⟨fun ha => ⟨?_, rnd_of_nonneg ha b⟩, fun ha => ?_⟩
  · rw [rnd_of_nonneg ha, floor_div_add_half a hb]
  · have negated := floor_div_add_half (-a) hb
    rw [Int.cast_neg, neg_div] at negated
    rw [rnd_of_neg ha, negated]

/-- Settles O32: a finite pattern is its signed significand times a power of two, which is the IEEE form. -/
theorem binary32Value : Obligations.Binary32Value := by
  intro w e f sign
  refine ⟨f32_of_nan, f32_of_infinity, fun he => ⟨_, f32_of_finite he, scaledRatio_den_pos _ _ _, ?_⟩⟩
  rw [scaledRatio_value, mul_assoc, significand_value, mul_ite]
  simp only [mul_assoc, sign, e, f]

/-- Settles O38: SINIT leaves fast PWM with TOP `n - 1`, and the auto-tune's `n` is within `[1, 65536]`. -/
theorem sinitPeriod : Obligations.SinitPeriod := by
  intro s g pin mn mx init t ch p n hg hp ha
  obtain ⟨mode, top⟩ := timer_constructGenerator g pin mn mx init t ch p n s
  obtain ⟨n_pos, n_le⟩ := autoTune_range ha
  refine ⟨_, exec_sinit hg hp ha, mode, ?_⟩
  rw [top, cfg_congr (constructGenerator_platform g pin mn mx init t ch p n s), pwmPeriod_pred _ n_pos n_le]

end
section
/-! The family of 10_state.md: what every step keeps (CSP and CBUF, STATUS, RESULT, the timer records, the generator
slots, the peripherals' registers), and which command writes which part of the state. -/

namespace Sys2Proof.Machine

/-! ## The words of a command (R36, R37, R104) -/

theorem opLen_pos (b : Byte) : 1 ≤ opLen b := by unfold opLen; split_ifs <;> decide

theorem opLen_le_three (b : Byte) : opLen b ≤ 3 := by unfold opLen; split_ifs <;> decide

theorem length_encode_instrOf (op : Opcode) (h second third : Word) :
    (encode (instrOf op h second third)).length = opLen (opcodeByte op) := by
  cases op <;> rfl

/-- The words of a decoded command are as many as its encoding has. -/
theorem lenOf_decoded {ws rest : List Word} {i : Instr} (h : decode ws = .ok (i, rest)) :
    lenOf ws = (encode i).length := by
  obtain ⟨hd, tl, op, rfl, opcode, -, -, rfl, -⟩ := decode_ok h
  rw [length_encode_instrOf, ← opcode]
  rfl

theorem decode_append_incomplete (buf : List Word) (w : Word) :
    decode (buf ++ [w]) = .error .incomplete ↔ buf.length + 1 < lenOf (buf ++ [w]) := by
  cases buf with
  | nil => exact decode_incomplete w []
  | cons hd tl => simpa [lenOf] using decode_incomplete hd (tl ++ [w])

/-- A word that arrives at a legal CBUF does not go beyond the end of its command. -/
theorem length_le_lenOf_append {s : State} (ok : CbufOk s) (w : Word) :
    s.cbuf.length + 1 ≤ lenOf (s.cbuf ++ [w]) := by
  unfold CbufOk at ok
  cases buf : s.cbuf with
  | nil => exact opLen_pos _
  | cons hd tl =>
    rw [buf] at ok
    exact ok

/-- A word that arrives at a legal CBUF and leaves no command incomplete is the last of its command. -/
theorem lenOf_of_complete {s : State} {w : Word} (ok : CbufOk s)
    (complete : decode (s.cbuf ++ [w]) ≠ .error .incomplete) :
    lenOf (s.cbuf ++ [w]) = s.cbuf.length + 1 := by
  have := length_le_lenOf_append ok w
  rw [Ne, decode_append_incomplete] at complete
  omega

theorem cbufOk_of_empty {s : State} (h : s.cbuf = []) : CbufOk s := by
  unfold CbufOk
  rw [h]
  exact opLen_pos _

theorem cbufOk_length_le_two {s : State} (ok : CbufOk s) : s.cbuf.length ≤ 2 := by
  unfold CbufOk lenOf at ok
  have := opLen_le_three (opField (s.cbuf.headD 0))
  omega

/-! ## What a command can do (R230, R231) -/

/-- Command `i` completes: the checks on the state pass and `s'` is the command's effect on `s`. -/
def Completes : Instr → State → State → Prop
  | .tsetps t p, s, s' => ∃ ps, psOfCode p = some ps ∧ s' = stagePrescaler t ps s
  | .tmoden t, s, s' => s' = modeNormal t s
  | .tmodef t top, s, s' => s' = modeFast t top s
  | .tsetcmp t mask inv v, s, s' => s' = compareWrite t mask inv v s
  | .tquery t, s, s' => s' = setResult (configWord (s.timer t)) s
  | .sinit g pin mn mx init, s, s' =>
    ∃ t ch p n, s.platform.pinMap.lookup pin = some (t, ch) ∧ autoTune (s.cfg t).fclk = some (p, n) ∧
      s' = constructGenerator g pin mn mx init t ch p n s
  | .ssetpw g pw, s, s' => (s.gen g).valid = true ∧ s' = pulseCommand g (pw.toNat, s)
  | .ssetang g x, s, s' => (s.gen g).valid = true ∧ s' = pulseCommand g (requestWidth g angleTarget x s)
  | .ssetpos g x, s, s' => (s.gen g).valid = true ∧ s' = pulseCommand g (requestWidth g percentTarget x s)
  | .squery g, s, s' => (s.gen g).valid = true ∧ s' = setResult ((s.gen g).pw.setWidth 32) s

theorem fits_tsetps {P : Platform} {t : UnitNo} {p : BitVec 3} {ps : Prescaler} (ht : t.val < P.numTimers)
    (hp : psOfCode p = some ps) : (Instr.tsetps t p).fits P = true := by
  have code : p.toNat < 5 := by
    by_contra big
    simp [psOfCode_none (not_lt.mp big)] at hp
  simp [Instr.fits, Instr.wellFormed, Instr.unitFits, Instr.pinFits, ht, code]

/-- A timer command without a check of its own raises BAD_UNIT or has its effect (R106). -/
theorem timerCommand_cases {i : Instr} {t : UnitNo} {s s' : State} {k : State → State}
    (h : withTimer t s k = .next s') (fits : i.fits s.platform = (decide (t.val < s.platform.numTimers) && true))
    (completes : Completes i s (k s)) :
    (∃ e, s' = raiseError e s) ∨ (i.fits s.platform = true ∧ Completes i s s') := by
  rcases withTimer_cases h with ⟨ht, rfl⟩ | ⟨-, rfl⟩
  · exact .inr ⟨by simp [fits, ht], completes⟩
  · exact .inl ⟨_, rfl⟩

/-- A generator command other than SINIT raises an error or has its effect (R50, R106). -/
theorem generatorCommand_cases {i : Instr} {g : UnitNo} {s s' : State} {k : State → State}
    (h : withGenerator g s k = .next s')
    (fits : i.fits s.platform = (decide (g.val < s.platform.numGenerators) && true))
    (completes : (s.gen g).valid = true → Completes i s (k s)) :
    (∃ e, s' = raiseError e s) ∨ (i.fits s.platform = true ∧ Completes i s s') := by
  rcases withGenerator_cases h with ⟨hg, valid, rfl⟩ | ⟨-, rfl⟩ | ⟨-, rfl⟩
  · exact .inr ⟨by simp [fits, hg], completes valid⟩
  · exact .inl ⟨_, rfl⟩
  · exact .inl ⟨_, rfl⟩

/-- A command raises an error, or it fits the platform and completes (R230). -/
theorem exec_cases {i : Instr} {s s' : State} (h : exec i s = .next s') :
    (∃ e, s' = raiseError e s) ∨ (i.fits s.platform = true ∧ Completes i s s') := by
  cases i with
  | tsetps t p =>
    rw [exec_tsetps] at h
    rcases withTimer_cases h with ⟨ht, rfl⟩ | ⟨-, rfl⟩
    · cases hp : psOfCode p with
      | none => exact .inl ⟨_, rfl⟩
      | some ps => exact .inr ⟨fits_tsetps ht hp, ps, hp, rfl⟩
    · exact .inl ⟨_, rfl⟩
  | tmoden t =>
    rw [exec_tmoden] at h
    exact timerCommand_cases h rfl rfl
  | tmodef t top =>
    rw [exec_tmodef] at h
    exact timerCommand_cases h rfl rfl
  | tsetcmp t mask inv v =>
    rw [exec_tsetcmp] at h
    exact timerCommand_cases h rfl rfl
  | tquery t =>
    rw [exec_tquery] at h
    exact timerCommand_cases h rfl rfl
  | sinit g pin mn mx init =>
    rcases sinit_cases h with ⟨e, rfl, -⟩ | ⟨t, ch, p, n, hg, hp, ha, rfl⟩
    · exact .inl ⟨e, rfl⟩
    · exact .inr ⟨by simp [Instr.fits, Instr.wellFormed, Instr.unitFits, Instr.pinFits, hg, hp],
        t, ch, p, n, hp, ha, rfl⟩
  | ssetpw g pw =>
    rw [exec_ssetpw] at h
    exact generatorCommand_cases h rfl (⟨·, rfl⟩)
  | ssetang g x =>
    rw [exec_ssetang] at h
    exact generatorCommand_cases h rfl (⟨·, rfl⟩)
  | ssetpos g x =>
    rw [exec_ssetpos] at h
    exact generatorCommand_cases h rfl (⟨·, rfl⟩)
  | squery g =>
    rw [exec_squery] at h
    exact generatorCommand_cases h rfl (⟨·, rfl⟩)

/-- A command leaves the parameters, the waiting words, CSP and CBUF alone (R36, R62). -/
theorem exec_keeps_words {i : Instr} {s s' : State} (h : exec i s = .next s') :
    s'.platform = s.platform ∧ s'.port = s.port ∧ s'.csp = s.csp ∧ s'.cbuf = s.cbuf := by
  refine exec_induction
    (P := fun s s' => s'.platform = s.platform ∧ s'.port = s.port ∧ s'.csp = s.csp ∧ s'.cbuf = s.cbuf)
    (fun _ => ⟨rfl, rfl, rfl, rfl⟩) ?trans (fun _ _ => ⟨rfl, rfl, rfl, rfl⟩) (fun _ _ => ⟨rfl, rfl, rfl, rfl⟩)
    (fun _ _ _ => ⟨rfl, rfl, rfl, rfl⟩) ?normal ?fast ?compare (fun _ _ _ => ⟨rfl, rfl, rfl, rfl⟩)
    (fun _ => ⟨rfl, rfl, rfl, rfl⟩) (fun _ _ => ⟨rfl, rfl, rfl, rfl⟩) h
  case trans =>
    rintro a b c ⟨p, q, r, u⟩ ⟨p', q', r', u'⟩
    exact ⟨p'.trans p, q'.trans q, r'.trans r, u'.trans u⟩
  case normal =>
    intro t s
    rw [modeNormal_eq, modeSet_eq]
    exact ⟨rfl, rfl, rfl, rfl⟩
  case fast =>
    intro t top s
    rw [modeFast_eq, modeSet_eq]
    exact ⟨rfl, rfl, rfl, rfl⟩
  case compare =>
    intro t mask inv v s
    rw [compareWrite_eq]
    exact ⟨rfl, rfl, rfl, rfl⟩

/-- A step buffers the word it takes, or it consumes the words received and leaves CBUF empty (R36, R37). -/
theorem step_words {s s' : State} (ok : CbufOk s) (h : step s = .next s') :
    (s.port = [] ∧ s' = s) ∨
    ∃ w, s.port = w :: s'.port ∧
      (s.cbuf.length + 1 < lenOf (s.cbuf ++ [w]) ∧ s'.cbuf = s.cbuf ++ [w] ∧ s'.csp = s.csp ∨
        s'.cbuf = [] ∧ s'.csp = s.csp + (s.cbuf.length + 1)) := by
  rcases step_cases h with ⟨port, rfl⟩ | ⟨w, rest, port, short, rfl⟩ | ⟨w, rest, e, port, bad, rfl⟩ |
    ⟨w, rest, i, r, port, decoded, executed⟩
  · exact .inl ⟨port, rfl⟩
  · exact .inr ⟨w, port, .inl ⟨(decode_append_incomplete _ _).mp short, rfl, rfl⟩⟩
  · have length := lenOf_of_complete ok (w := w) (by rcases bad with ⟨bad, -⟩ | ⟨bad, -⟩ <;> simp [bad])
    exact .inr ⟨w, port, .inr ⟨rfl, by simp [length]⟩⟩
  · have length := lenOf_of_complete ok (w := w) (by simp [decoded])
    obtain ⟨-, port', csp', cbuf'⟩ := exec_keeps_words executed
    exact .inr ⟨w, by rw [port, port', consume_port], .inr ⟨cbuf', by rw [csp', consume_csp, length]⟩⟩

theorem step_keeps_platform {s s' : State} (h : step s = .next s') : s'.platform = s.platform :=
  step_induction (P := fun s s' => s'.platform = s.platform) (fun _ => rfl) (fun p q => q.trans p)
    (fun _ _ _ _ => rfl) (fun _ _ => rfl) (fun _ _ _ h => (exec_keeps_words h).1) h

/-- A step keeps CBUF shorter than its command (R37). -/
theorem step_keeps_cbufOk {s s' : State} (ok : CbufOk s) (h : step s = .next s') : CbufOk s' := by
  rcases step_words ok h with ⟨-, rfl⟩ | ⟨w, -, ⟨short, cbuf, -⟩ | ⟨cbuf, -⟩⟩
  · exact ok
  · unfold CbufOk
    rw [cbuf, List.length_append]
    exact short
  · exact cbufOk_of_empty cbuf

/-! ## STATUS (R39, R231) -/

@[simp] theorem constructGenerator_status (g : UnitNo) (pin mn mx init : Half) (t : UnitNo) (ch : Channel)
    (p : Prescaler) (n : Nat) (s : State) : (constructGenerator g pin mn mx init t ch p n s).status = s.status := by
  unfold constructGenerator configureTimer
  rw [pulseWrite_status]
  split
  · rfl
  · rw [modeFast_eq, modeSet_eq]
    rfl

/-- A command that completes raises no error. -/
theorem completes_status {i : Instr} {s s' : State} (h : Completes i s s') : s'.status = s.status := by
  cases i with
  | tsetps t p => obtain ⟨ps, -, rfl⟩ := h; rfl
  | tmoden t => cases h; rw [modeNormal_eq, modeSet_eq]
  | tmodef t top => cases h; rw [modeFast_eq, modeSet_eq]
  | tsetcmp t mask inv v => cases h; rw [compareWrite_eq]
  | tquery t => cases h; rfl
  | sinit g pin mn mx init => obtain ⟨t, ch, p, n, -, -, rfl⟩ := h; exact constructGenerator_status ..
  | ssetpw g pw => obtain ⟨-, rfl⟩ := h; exact pulseCommand_status ..
  | ssetang g x => obtain ⟨-, rfl⟩ := h; rw [pulseCommand_status, requestWidth_status]
  | ssetpos g x => obtain ⟨-, rfl⟩ := h; rw [pulseCommand_status, requestWidth_status]
  | squery g => obtain ⟨-, rfl⟩ := h; rfl

/-- A command leaves STATUS alone or records one error in it. -/
theorem exec_status {i : Instr} {s s' : State} (h : exec i s = .next s') :
    s'.status = s.status ∨ ∃ e, s'.status = recordError e s.status := by
  rcases exec_cases h with ⟨e, rfl⟩ | ⟨-, completes⟩
  · exact .inr ⟨e, rfl⟩
  · exact .inl (completes_status completes)

/-- A step leaves STATUS alone or records one error in it. -/
theorem step_status {s s' : State} (h : step s = .next s') :
    s'.status = s.status ∨ ∃ e, s'.status = recordError e s.status := by
  rcases step_cases h with ⟨-, rfl⟩ | ⟨w, rest, -, -, rfl⟩ | ⟨w, rest, e, -, -, rfl⟩ |
    ⟨w, rest, i, r, -, -, executed⟩
  · exact .inl rfl
  · exact .inl rfl
  · exact .inr ⟨e, rfl⟩
  · have status := exec_status executed
    rwa [consume_status] at status

theorem recordError_of_err {st : Byte} (h : statusErr st = true) (e : ErrCode) : recordError e st = st := if_pos h

/-- Recording an error keeps STATUS one of its legal values (R39, R232). -/
theorem statusOk_of_recordError {s s' : State} {e : ErrCode} (ok : StatusOk s)
    (h : s'.status = recordError e s.status) : StatusOk s' := by
  unfold StatusOk
  rw [h, recordError]
  split
  · exact ok
  · right
    cases e <;> decide

/-- A step keeps STATUS one of its legal values. -/
theorem step_keeps_statusOk {s s' : State} (ok : StatusOk s) (h : step s = .next s') : StatusOk s' := by
  rcases step_status h with same | ⟨e, recorded⟩
  · unfold StatusOk
    rw [same]
    exact ok
  · exact statusOk_of_recordError ok recorded

end Sys2Proof.Machine

open Sys2Proof.Machine

/-- Settles O51: a step either buffers a word of an incomplete command or empties CBUF, and records at most one
error. -/
theorem stepKeepsInterfaceState : Obligations.StepKeepsInterfaceState := by
  intro s s' cbuf status h
  have cbuf' := step_keeps_cbufOk cbuf h
  exact ⟨cbuf', cbufOk_length_le_two cbuf', step_keeps_statusOk status h, step_keeps_platform h⟩

/-- Settles O9: the word a step takes is in CBUF, or CSP has counted it with the words before it. -/
theorem positionCountsWords : Obligations.PositionCountsWords := by
  intro s s' ok h
  rcases step_words ok h with ⟨port, rfl⟩ | ⟨w, port, ⟨-, cbuf, csp⟩ | ⟨cbuf, csp⟩⟩
  · simp [port]
  · refine ⟨?_, by simp [port], fun _ => .inl csp⟩
    simp only [port, cbuf, csp, List.length_append, List.length_cons, List.length_nil]
    omega
  · refine ⟨?_, by simp [port], fun _ => .inr cbuf⟩
    simp only [port, cbuf, csp, List.length_cons, List.length_nil]
    omega

/-- Settles O11: recording an error in a STATUS with ERR = 1 leaves it. -/
theorem firstErrorIsKept : Obligations.FirstErrorIsKept := by
  intro s s' err h
  rcases step_status h with same | ⟨e, recorded⟩
  · exact same
  · rw [recorded, recordError_of_err err]

/-- Settles O7: the length the block counts from the opcode is that of the command's encoding. -/
theorem stepRunsDecodedCommand : Obligations.StepRunsDecodedCommand := by
  intro s w port i rest hp decoded
  rw [step_command hp decoded, lenOf_decoded decoded]
  rfl

end
section
/-! The family of 10_state.md, continued: which command writes RESULT, the timer records and the generator slots, and
the invariants of the records and of the peripherals' registers. -/

namespace Sys2Proof.Machine

/-! ## RESULT (R40) -/

@[simp] theorem pulseCommand_result (g : UnitNo) (xs : Int × State) : (pulseCommand g xs).result = 1 := rfl

@[simp] theorem constructGenerator_result (g : UnitNo) (pin mn mx init : Half) (t : UnitNo) (ch : Channel)
    (p : Prescaler) (n : Nat) (s : State) : (constructGenerator g pin mn mx init t ch p n s).result = s.result := by
  unfold constructGenerator configureTimer
  rw [pulseWrite_result]
  split
  · rfl
  · rw [modeFast_eq, modeSet_eq]
    rfl

/-- A step changes RESULT only where it executes a command. -/
theorem step_result {s s' : State} (h : step s = .next s') (changed : s'.result ≠ s.result) :
    ∃ w port i rest, s.port = w :: port ∧ decode (s.cbuf ++ [w]) = .ok (i, rest) := by
  rcases step_cases h with ⟨-, rfl⟩ | ⟨w, rest, -, -, rfl⟩ | ⟨w, rest, e, -, -, rfl⟩ |
    ⟨w, rest, i, r, port, decoded, -⟩
  · exact absurd rfl changed
  · exact absurd rfl changed
  · exact absurd rfl changed
  · exact ⟨w, rest, i, r, port, decoded⟩

/-! ## The record of one timer (R42–R49) -/

theorem timer_of_set_self {s s' : State} {t : UnitNo} {r : TimerRec} (h : s'.timers = s.timers.set t.val r) :
    s'.timer t = r := by
  simp [State.timer, h]

theorem timer_of_set_ne {s s' : State} {t u : UnitNo} {r : TimerRec} (h : s'.timers = s.timers.set t.val r)
    (hne : u ≠ t) : s'.timer u = s.timer u := by
  simp [State.timer, h, Fin.val_inj, hne.symm]

@[simp] theorem requestWidth_timers (g : UnitNo) (f : GenRec → Ratio → Int) (x : Word) (s : State) :
    (requestWidth g f x s).2.timers = s.timers := by
  unfold requestWidth; split <;> rfl

/-- The record a mode-set leaves in its timer (R143, R144). -/
def modeRecord (l : Layout) (c : TimerCfg) (wgm : BitVec 4) (mode : Mode) (top : Half) (p : Prescaler) : TimerRec :=
  { shadow := modeShadow l c wgm p, psStaged := p, mode := mode, psApplied := p, top := top }

theorem timers_modeSet (t : UnitNo) (wgm : BitVec 4) (icr : Option Half) (mode : Mode) (top : Half) (s : State) :
    (critical (modeSetBody t wgm icr mode top) s).timers =
      s.timers.set t.val (modeRecord s.platform.layout (s.cfg t) wgm mode top (s.timer t).psStaged) := by
  rw [modeSet_eq]
  rfl

theorem timers_compareWrite (t : UnitNo) (mask : BitVec 3) (inv : Bool) (v : Half) (s : State) :
    (compareWrite t mask inv v s).timers =
      s.timers.set t.val
        { s.timer t with shadow := compareShadow s.platform.layout (s.cfg t) mask inv (s.timer t).shadow } := by
  rw [compareWrite_eq]

/-- A mode-set keeps the staged prescaler of every timer. -/
theorem psStaged_modeSet (t u : UnitNo) (wgm : BitVec 4) (icr : Option Half) (mode : Mode) (top : Half) (s : State) :
    ((critical (modeSetBody t wgm icr mode top) s).timer u).psStaged = (s.timer u).psStaged := by
  by_cases h : u = t
  · subst h
    rw [timer_of_set_self (timers_modeSet u wgm icr mode top s)]
    rfl
  · rw [timer_of_set_ne (timers_modeSet t wgm icr mode top s) h]

theorem timer_stagePrescaler_ne {t u : UnitNo} (h : u ≠ t) (p : Prescaler) (s : State) :
    (stagePrescaler t p s).timer u = s.timer u := timer_setTimer_ne s h _

theorem timer_modeFast_ne {t u : UnitNo} (h : u ≠ t) (top : Half) (s : State) :
    (modeFast t top s).timer u = s.timer u := by
  rw [modeFast_eq]
  exact timer_of_set_ne (timers_modeSet ..) h

/-- Configuring a timer leaves the others alone. -/
theorem timer_configureTimer_ne {t u : UnitNo} (h : u ≠ t) (p : Prescaler) (n : Nat) (s : State) :
    (configureTimer t p n s).timer u = s.timer u := by
  unfold configureTimer
  split
  · rfl
  · rw [timer_modeFast_ne h, timer_stagePrescaler_ne h]

/-- An SINIT changes nothing but the shadow of a timer other than its pin's. -/
theorem timer_constructGenerator_ne {t u : UnitNo} (h : u ≠ t) (g : UnitNo) (pin mn mx init : Half) (ch : Channel)
    (p : Prescaler) (n : Nat) (s : State) :
    ∃ sh, (constructGenerator g pin mn mx init t ch p n s).timer u = { s.timer u with shadow := sh } := by
  have configured := timer_configureTimer_ne h p n
    (emit (.pinOut pin) (setGen g (newGenerator pin mn mx t ch n (s.gen g).pw) s))
  obtain ⟨sh, pulsed⟩ := timer_pulseWrite g init.toNat u (configureTimer t p n
    (emit (.pinOut pin) (setGen g (newGenerator pin mn mx t ch n (s.gen g).pw) s)))
  exact ⟨sh, pulsed.trans (by rw [configured]; rfl)⟩

/-- A pulse command writes the records its pulse write writes. -/
theorem timers_pulseCommand (g : UnitNo) (xs : Int × State) :
    (pulseCommand g xs).timers = (pulseWrite g xs.1 xs.2).timers := setResult_timers ..

theorem gens_pulseCommand (g : UnitNo) (xs : Int × State) :
    (pulseCommand g xs).gens = (pulseWrite g xs.1 xs.2).gens := setResult_gens ..

/-- A pulse command changes nothing of a timer's record but the shadow. -/
theorem timer_pulseCommand {g u : UnitNo} {xs : Int × State} {s : State} (h : xs.2.timers = s.timers) :
    ∃ sh, (pulseCommand g xs).timer u = { s.timer u with shadow := sh } := by
  obtain ⟨sh, pulsed⟩ := timer_pulseWrite g xs.1 u xs.2
  exact ⟨sh, by rw [timer_congr (timers_pulseCommand g xs), pulsed, timer_congr h]⟩

/-- What a command does to the cache and the staged prescaler of a timer: nothing, unless it is a TSETPS or a
mode-set of that timer or an SINIT on one of its pins (R46–R49). -/
theorem timer_exec_cases {i : Instr} {s s' : State} (h : exec i s = .next s') (u : UnitNo) :
    (∃ sh, s'.timer u = { s.timer u with shadow := sh }) ∨
    (∃ p ps, i = .tsetps u p ∧ s'.timer u = { s.timer u with psStaged := ps }) ∨
    ((i = .tmoden u ∨ ∃ top, i = .tmodef u top) ∧ (s'.timer u).psStaged = (s.timer u).psStaged) ∨
    ∃ g pin mn mx init ch, i = .sinit g pin mn mx init ∧ s.platform.pinMap.lookup pin = some (u, ch) := by
  rcases exec_cases h with ⟨e, rfl⟩ | ⟨-, completes⟩
  · exact .inl ⟨_, rfl⟩
  cases i with
  | tsetps t p =>
    obtain ⟨ps, -, rfl⟩ := completes
    by_cases hu : u = t
    · subst hu
      exact .inr (.inl ⟨p, ps, rfl, timer_setTimer_self ..⟩)
    · exact .inl ⟨_, timer_stagePrescaler_ne hu ps s⟩
  | tmoden t =>
    cases completes
    by_cases hu : u = t
    · subst hu
      exact .inr (.inr (.inl ⟨.inl rfl, psStaged_modeSet ..⟩))
    · exact .inl ⟨_, timer_of_set_ne (timers_modeSet ..) hu⟩
  | tmodef t top =>
    cases completes
    by_cases hu : u = t
    · subst hu
      exact .inr (.inr (.inl ⟨.inr ⟨top, rfl⟩, psStaged_modeSet ..⟩))
    · exact .inl ⟨_, timer_modeFast_ne hu top s⟩
  | tsetcmp t mask inv v =>
    cases completes
    exact .inl (timer_compareWrite t u mask inv v s)
  | tquery t =>
    cases completes
    exact .inl ⟨_, rfl⟩
  | sinit g pin mn mx init =>
    obtain ⟨t, ch, p, n, hp, -, rfl⟩ := completes
    by_cases hu : u = t
    · subst hu
      exact .inr (.inr (.inr ⟨g, pin, mn, mx, init, ch, rfl, hp⟩))
    · exact .inl (timer_constructGenerator_ne hu g pin mn mx init ch p n s)
  | ssetpw g pw =>
    obtain ⟨-, rfl⟩ := completes
    exact .inl (timer_pulseCommand rfl)
  | ssetang g x =>
    obtain ⟨-, rfl⟩ := completes
    exact .inl (timer_pulseCommand (requestWidth_timers ..))
  | ssetpos g x =>
    obtain ⟨-, rfl⟩ := completes
    exact .inl (timer_pulseCommand (requestWidth_timers ..))
  | squery g =>
    obtain ⟨-, rfl⟩ := completes
    exact .inl ⟨_, rfl⟩

/-! ## One generator slot (R50–R58) -/

@[simp] theorem requestWidth_gens (g : UnitNo) (f : GenRec → Ratio → Int) (x : Word) (s : State) :
    (requestWidth g f x s).2.gens = s.gens := by
  unfold requestWidth; split <;> rfl

/-- The slot a pulse write of the requested width `x` leaves (R197, R198). -/
def withWidth (r : GenRec) (x : Int) : GenRec :=
  { r with pw := BitVec.ofInt 16 (clamp x r.minUs.toNat r.maxUs.toNat) }

theorem gen_pulseWrite_ne {g k : UnitNo} (h : k ≠ g) (x : Int) (s : State) :
    (pulseWrite g x s).gen k = s.gen k := by
  rw [pulseWrite_eq]
  simp only [compareWrite_eq]
  exact gen_setGen_ne s h _

/-- A pulse command of a constructed slot leaves every other slot alone and stores a clamped width in its own. -/
theorem gen_pulseCommand {g : UnitNo} {xs : Int × State} {s : State} (valid : (s.gen g).valid = true)
    (h : xs.2.gens = s.gens) (k : UnitNo) :
    (pulseCommand g xs).gen k = s.gen k ∨
      ((s.gen k).valid = true ∧ ∃ x, (pulseCommand g xs).gen k = withWidth (s.gen k) x) := by
  rw [gen_congr (gens_pulseCommand g xs), ← gen_congr h k]
  by_cases hk : k = g
  · subst hk
    rw [← gen_congr h] at valid
    exact .inr ⟨valid, xs.1, gen_pulseWrite ..⟩
  · exact .inl (gen_pulseWrite_ne hk _ _)

theorem gens_modeSet (t : UnitNo) (wgm : BitVec 4) (icr : Option Half) (mode : Mode) (top : Half) (s : State) :
    (critical (modeSetBody t wgm icr mode top) s).gens = s.gens := by
  rw [modeSet_eq]

@[simp] theorem configureTimer_gens (t : UnitNo) (p : Prescaler) (n : Nat) (s : State) :
    (configureTimer t p n s).gens = s.gens := by
  unfold configureTimer
  split
  · rfl
  · rw [modeFast_eq, gens_modeSet]
    rfl

theorem gen_constructGenerator_self (g : UnitNo) (pin mn mx init : Half) (t : UnitNo) (ch : Channel) (p : Prescaler)
    (n : Nat) (s : State) :
    (constructGenerator g pin mn mx init t ch p n s).gen g =
      withWidth (newGenerator pin mn mx t ch n (s.gen g).pw) init.toNat := by
  unfold constructGenerator
  rw [gen_pulseWrite, gen_congr (configureTimer_gens ..), gen_congr (emit_gens ..), gen_setGen_self]
  rfl

theorem gen_constructGenerator_ne {g k : UnitNo} (h : k ≠ g) (pin mn mx init : Half) (t : UnitNo) (ch : Channel)
    (p : Prescaler) (n : Nat) (s : State) :
    (constructGenerator g pin mn mx init t ch p n s).gen k = s.gen k := by
  unfold constructGenerator
  rw [gen_pulseWrite_ne h, gen_congr (configureTimer_gens ..), gen_congr (emit_gens ..), gen_setGen_ne _ h]

/-- What a command does to a slot: nothing, a clamped width stored in a constructed slot, or the construction by an
SINIT on that slot (R58, R180, R198). -/
theorem gen_exec_cases {i : Instr} {s s' : State} (h : exec i s = .next s') (k : UnitNo) :
    s'.gen k = s.gen k ∨
    ((s.gen k).valid = true ∧ ∃ x, s'.gen k = withWidth (s.gen k) x) ∨
    ∃ pin mn mx init t ch p n, i = .sinit k pin mn mx init ∧ s.platform.pinMap.lookup pin = some (t, ch) ∧
      autoTune (s.cfg t).fclk = some (p, n) ∧
      s'.gen k = withWidth (newGenerator pin mn mx t ch n (s.gen k).pw) init.toNat := by
  rcases exec_cases h with ⟨e, rfl⟩ | ⟨-, completes⟩
  · exact .inl rfl
  cases i with
  | tsetps t p =>
    obtain ⟨ps, -, rfl⟩ := completes
    exact .inl rfl
  | tmoden t =>
    cases completes
    exact .inl (gen_congr (gens_modeSet ..) k)
  | tmodef t top =>
    cases completes
    exact .inl (gen_congr (gens_modeSet ..) k)
  | tsetcmp t mask inv v =>
    cases completes
    rw [compareWrite_eq]
    exact .inl rfl
  | tquery t =>
    cases completes
    exact .inl rfl
  | sinit g pin mn mx init =>
    obtain ⟨t, ch, p, n, hp, ha, rfl⟩ := completes
    by_cases hk : k = g
    · subst hk
      exact .inr (.inr ⟨pin, mn, mx, init, t, ch, p, n, rfl, hp, ha, gen_constructGenerator_self ..⟩)
    · exact .inl (gen_constructGenerator_ne hk ..)
  | ssetpw g pw =>
    obtain ⟨valid, rfl⟩ := completes
    exact (gen_pulseCommand valid rfl k).imp_right .inl
  | ssetang g x =>
    obtain ⟨valid, rfl⟩ := completes
    exact (gen_pulseCommand valid (requestWidth_gens ..) k).imp_right .inl
  | ssetpos g x =>
    obtain ⟨valid, rfl⟩ := completes
    exact (gen_pulseCommand valid (requestWidth_gens ..) k).imp_right .inl
  | squery g =>
    obtain ⟨-, rfl⟩ := completes
    exact .inl rfl

/-! ## The generator invariant (R50–R58, R181, R186) -/

/-- The part of the generator invariant that does not speak of the width. -/
def BoundOk (p : Platform) (r : GenRec) : Prop :=
  r.minUs.toNat < r.maxUs.toNat ∧ r.mid = midUs r.minUs r.maxUs ∧ r.mpd = microsPerDegree r.minUs r.maxUs ∧
    r.mpp = microsPerPercent r.minUs r.maxUs ∧ p.pinMap.lookup r.pin = some (r.timer, r.ch) ∧
    (autoTune p.timers[r.timer.val].fclk).map Prod.snd = some r.n.toNat

theorem genOk_boundOk {p : Platform} {r : GenRec} (ok : GenOk p r) (valid : r.valid = true) : BoundOk p r := by
  obtain ⟨lt, mid, mpd, mpp, pin, n, -, -⟩ := ok valid
  exact ⟨lt, mid, mpd, mpp, pin, n⟩

/-- A clamped width lies within the bounds it is clamped to. -/
theorem clamp_bounds (x : Int) {lo hi : Int} (h : lo ≤ hi) : lo ≤ clamp x lo hi ∧ clamp x lo hi ≤ hi := by
  unfold clamp; split_ifs <;> omega

/-- Any width a pulse write stores completes the invariant of a slot whose other fields are in order. -/
theorem genOk_withWidth {p : Platform} {r : GenRec} (ok : BoundOk p r) (x : Int) : GenOk p (withWidth r x) := by
  obtain ⟨lt, mid, mpd, mpp, pin, n⟩ := ok
  intro _
  have width := clamp_toNat x r.minUs r.maxUs
  have bounds := clamp_bounds x (Int.ofNat_le.mpr lt.le)
  refine ⟨lt, mid, mpd, mpp, pin, n, ?_, ?_⟩ <;> simp only [withWidth] <;> omega

theorem validBounds_lt (mn mx : Half) : (validBounds mn mx).1.toNat < (validBounds mn mx).2.toNat := by
  unfold validBounds
  split
  · decide
  · next lt => exact not_le.mp lt

/-- A newly constructed slot meets the invariant but for its width (R180–R183, R186). -/
theorem boundOk_newGenerator {P : Platform} {pin mn mx pw : Half} {t : UnitNo} {ch : Channel} {p : Prescaler} {n : Nat}
    (hp : P.pinMap.lookup pin = some (t, ch)) (ha : autoTune P.timers[t.val].fclk = some (p, n)) :
    BoundOk P (newGenerator pin mn mx t ch n pw) := by
  obtain ⟨-, n_le⟩ := autoTune_range ha
  refine ⟨validBounds_lt mn mx, rfl, rfl, rfl, hp, ?_⟩
  simp only [newGenerator, ha, Option.map_some, BitVec.toNat_ofNat]
  rw [Nat.mod_eq_of_lt (by omega)]

/-- A command keeps the generator invariant of every slot. -/
theorem exec_keeps_gensOk {i : Instr} {s s' : State} (h : exec i s = .next s') (ok : GensOk s) : GensOk s' := by
  intro g
  rw [(exec_keeps_words h).1]
  rcases gen_exec_cases h g with kept | ⟨valid, x, stored⟩ | ⟨pin, mn, mx, init, t, ch, p, n, -, hp, ha, made⟩
  · rw [kept]
    exact ok g
  · rw [stored]
    exact genOk_withWidth (genOk_boundOk (ok g) valid) x
  · rw [made]
    exact genOk_withWidth (boundOk_newGenerator hp ha) _

/-! ## Invariants of the timers -/

/-- A property that depends on the parameters, the timer records and the trace alone, and that pin requests, staging,
mode-sets and compare writes keep, is kept by every step. -/
theorem step_keeps_timer_invariant {I : State → Prop}
    (congr : ∀ {s s' : State}, s'.platform = s.platform → s'.timers = s.timers → s'.trace = s.trace → I s → I s')
    (pin : ∀ p s, I s → I (emit (.pinOut p) s)) (stage : ∀ t p s, I s → I (stagePrescaler t p s))
    (normal : ∀ t s, I s → I (modeNormal t s)) (fast : ∀ t top s, I s → I (modeFast t top s))
    (compare : ∀ t mask inv v s, I s → I (compareWrite t mask inv v s)) {s s' : State} (h : step s = .next s') :
    I s → I s' :=
  step_induction (P := fun s s' => I s → I s') (fun _ => id) (fun ab bc => bc ∘ ab)
    (fun _ _ _ _ => congr rfl rfl rfl) (fun _ _ => congr rfl rfl rfl)
    (fun _ _ _ => exec_induction (P := fun s s' => I s → I s') (fun _ => id) (fun ab bc => bc ∘ ab)
      (fun _ _ => congr rfl rfl rfl) (fun _ _ => congr rfl rfl rfl) stage normal fast compare
      (fun _ _ _ => congr rfl rfl rfl) (fun _ => congr rfl rfl rfl) pin) h

/-! ## Shadow and configuration cache (R42–R49) -/

/-- The record of a timer is consistent: one timer's part of `TimersOk`. -/
def RecordOk (l : Layout) (c : TimerCfg) (r : TimerRec) : Prop := CacheOk l c r ∧ ComOk l c r.shadow

/-- The records stay consistent when a consistent one replaces one of them. -/
theorem timersOk_set {s s' : State} {t : UnitNo} {r : TimerRec} (ok : TimersOk s)
    (platform : s'.platform = s.platform) (timers : s'.timers = s.timers.set t.val r)
    (hr : RecordOk s.platform.layout (s.cfg t) r) :
    TimersOk s' := by
  intro u
  rw [platform, cfg_congr platform]
  by_cases hu : u = t
  · subst hu
    rw [timer_of_set_self timers]
    exact hr
  · rw [timer_of_set_ne timers hu]
    exact ok u

theorem comOk_modeShadow (l : Layout) (c : TimerCfg) (wgm : BitVec 4) (p : Prescaler) :
    ComOk l c (modeShadow l c wgm p) := by
  refine ⟨?_, fun absent => by simp [modeShadow, absent]⟩
  cases hC : chanPresent c .C <;> simp [modeShadow, shadowCom, hC]

theorem recordOk_modeNormal (l : Layout) (c : TimerCfg) (p : Prescaler) :
    RecordOk l c (modeRecord l c 0 .normal 0 p) :=
  ⟨⟨nofun, fun _ => ⟨rfl, rfl, rfl⟩, nofun⟩, comOk_modeShadow l c 0 p⟩

theorem recordOk_modeFast (l : Layout) (c : TimerCfg) (top : Half) (p : Prescaler) :
    RecordOk l c (modeRecord l c (wgmFast l c) .fastPwm top p) :=
  ⟨⟨nofun, nofun, fun _ => ⟨rfl, rfl⟩⟩, comOk_modeShadow l c _ p⟩

theorem selected_C_of_absent {c : TimerCfg} (absent : chanPresent c .C = false) (mask : BitVec 3) :
    selected c mask .C = false := by
  simp [selected, absent]

/-- A compare write sets the COM fields of present channels, to values the block writes (R156, R160). -/
theorem comOk_compareShadow {l : Layout} {c : TimerCfg} {sh : Shadow} (ok : ComOk l c sh) (mask : BitVec 3)
    (inv : Bool) : ComOk l c (compareShadow l c mask inv sh) := by
  obtain ⟨values, absentC⟩ := ok
  have written : (if inv then l.comSet else l.comClear) ∈ [0, l.comOff, l.comClear, l.comSet] := by
    cases inv <;> simp
  refine ⟨?_, fun absent => ?_⟩
  · intro ch hch
    have old := values ch hch
    cases ch <;> simp only [compareShadow, shadowCom] at old ⊢ <;> split <;> assumption
  · simp only [compareShadow, selected_C_of_absent absent, Bool.false_eq_true, if_false]
    exact absentC absent

/-- A compare write leaves WGM, CS and the configuration cache of its record alone (R162). -/
theorem recordOk_compare {l : Layout} {c : TimerCfg} {r : TimerRec} (ok : RecordOk l c r) (mask : BitVec 3)
    (inv : Bool) : RecordOk l c { r with shadow := compareShadow l c mask inv r.shadow } :=
  ⟨ok.1, comOk_compareShadow ok.2 mask inv⟩

/-- A step keeps the timer records consistent. -/
theorem step_keeps_timersOk {s s' : State} (h : step s = .next s') : TimersOk s → TimersOk s' := by
  refine step_keeps_timer_invariant (I := TimersOk) ?congr (fun _ _ ok => ok) ?stage ?normal ?fast ?compare h
  case congr =>
    intro s s' platform timers _ ok u
    rw [platform, cfg_congr platform, timer_congr timers]
    exact ok u
  case stage =>
    intro t p s ok
    exact timersOk_set ok rfl rfl (ok t)
  case normal =>
    intro t s ok
    exact timersOk_set ok (by rw [modeNormal_eq, modeSet_eq]) (timers_modeSet ..) (recordOk_modeNormal ..)
  case fast =>
    intro t top s ok
    exact timersOk_set ok (modeFast_platform ..) (timers_modeSet ..) (recordOk_modeFast ..)
  case compare =>
    intro t mask inv v s ok
    exact timersOk_set ok (by rw [compareWrite_eq]) (timers_compareWrite ..) (recordOk_compare (ok t) mask inv)

end Sys2Proof.Machine

open Sys2Proof.Machine

/-- Settles O13: an error and a step without a command leave RESULT, and so does a completed command of another
name. -/
theorem resultRegisterWriters : Obligations.ResultRegisterWriters := by
  refine ⟨?_, fun s s' => step_result, fun s w v => ⟨rfl, rfl⟩, rfl, fun s => rfl⟩
  intro i s s' h changed
  rcases exec_cases h with ⟨e, rfl⟩ | ⟨fits, completes⟩
  · exact absurd rfl changed
  refine ⟨completes_status completes, fits, ?_⟩
  cases i with
  | tsetps t p => obtain ⟨ps, -, rfl⟩ := completes; exact changed rfl
  | tmoden t => cases completes; exact changed (by rw [modeNormal_eq, modeSet_eq])
  | tmodef t top => cases completes; exact changed (by rw [modeFast_eq, modeSet_eq])
  | tsetcmp t mask inv v => cases completes; exact changed (by rw [compareWrite_eq])
  | tquery t => trivial
  | sinit g pin mn mx init =>
    obtain ⟨t, ch, p, n, -, -, rfl⟩ := completes
    exact changed (constructGenerator_result ..)
  | ssetpw g pw => obtain ⟨valid, rfl⟩ := completes; exact ⟨pulseCommand_result .., valid⟩
  | ssetang g x => obtain ⟨valid, rfl⟩ := completes; exact ⟨pulseCommand_result .., valid⟩
  | ssetpos g x => obtain ⟨valid, rfl⟩ := completes; exact ⟨pulseCommand_result .., valid⟩
  | squery g => exact completes.1

/-- Settles O25: by what each kind of command does to a timer's record. -/
theorem configurationWriters : Obligations.ConfigurationWriters := by
  intro i s s' t h
  rcases timer_exec_cases h t with ⟨sh, kept⟩ | ⟨p, ps, rfl, staged⟩ | ⟨modeSet, kept⟩ | sinit
  · simp [kept]
  · exact ⟨by simp [staged], fun _ => .inl ⟨p, rfl⟩⟩
  · exact ⟨fun _ => modeSet.imp_right .inl, fun changed => absurd kept changed⟩
  · exact ⟨fun _ => .inr (.inr sinit), fun _ => .inr sinit⟩

/-- Settles O48: a command other than an SINIT on the slot leaves it or stores a width in it. -/
theorem generatorFieldsFrozen : Obligations.GeneratorFieldsFrozen := by
  intro i s s' g h other
  rcases gen_exec_cases h g with kept | ⟨-, x, stored⟩ | ⟨pin, mn, mx, init, t, ch, p, n, named, -⟩
  · rw [kept]
  · rw [stored]
    rfl
  · exact absurd named (other pin mn mx init)

/-- Settles O53: only commands change a slot, and each leaves it in order. -/
theorem stepKeepsGenerators : Obligations.StepKeepsGenerators := fun _ _ ok h =>
  step_induction (P := fun s s' => GensOk s → GensOk s') (fun _ => id) (fun ab bc => bc ∘ ab)
    (fun _ _ _ _ ok => ok) (fun _ _ ok => ok) (fun _ _ _ => exec_keeps_gensOk) h ok

/-- Settles O52: each effect on a timer replaces its record by a consistent one. -/
theorem stepKeepsTimerRecords : Obligations.StepKeepsTimerRecords := fun _ _ ok h => step_keeps_timersOk h ok

end
section
/-! The family of 10_state.md, continued: the peripherals' registers as last written, and the reset state. -/

namespace Sys2Proof.Machine

/-! ## The registers an operation writes (R138, R144, R157) -/

theorem write_mem_commitEvents {l : Layout} {c : TimerCfg} {t u : UnitNo} {sh : Shadow} {r : RegName} {v : RegValue}
    (h : Event.write u r v ∈ commitEvents l c t sh) : u = t ∧ (r = .ctrlA ∨ r = .ctrlB ∨ r = .ctrlC) := by
  unfold commitEvents at h
  cases hc : c.is16 <;> simp [hc] at h <;> tauto

theorem write_mem_compareEvents {c : TimerCfg} {t u : UnitNo} {mask : BitVec 3} {value : Half} {r : RegName}
    {v : RegValue} (h : Event.write u r v ∈ compareEvents c t mask value) :
    u = t ∧ (r = .ocrA ∨ r = .ocrB ∨ r = .ocrC) := by
  simp only [compareEvents, List.mem_append, List.mem_ite_nil_right, List.mem_singleton, Event.write.injEq] at h
  tauto

/-- The events a mode-set adds to the trace (R136, R144). -/
def modeSetTrace (l : Layout) (c : TimerCfg) (t : UnitNo) (icr : Option Half) (sh : Shadow) (ie : Bool) :
    List Event := [Event.ie false] ++ modeEvents l c t icr sh ++ [Event.ie ie]

/-- The events a compare write adds to the trace (R136, R157). -/
def compareTrace (l : Layout) (c : TimerCfg) (t : UnitNo) (mask : BitVec 3) (value : Half) (sh : Shadow)
    (ie : Bool) : List Event :=
  [Event.ie false] ++ compareEvents c t mask value ++ commitEvents l c t sh ++ [Event.ie ie]

theorem trace_modeSet (t : UnitNo) (wgm : BitVec 4) (icr : Option Half) (mode : Mode) (top : Half) (s : State) :
    (critical (modeSetBody t wgm icr mode top) s).trace =
      s.trace ++ modeSetTrace s.platform.layout (s.cfg t) t icr
        (modeShadow s.platform.layout (s.cfg t) wgm (s.timer t).psStaged) s.ie := by
  rw [modeSet_eq]
  simp only [modeSetTrace, List.append_assoc]

theorem trace_compareWrite (t : UnitNo) (mask : BitVec 3) (inv : Bool) (value : Half) (s : State) :
    (compareWrite t mask inv value s).trace =
      s.trace ++ compareTrace s.platform.layout (s.cfg t) t mask value
        (compareShadow s.platform.layout (s.cfg t) mask inv (s.timer t).shadow) s.ie := by
  rw [compareWrite_eq]
  simp only [compareTrace, List.append_assoc]

/-- A mode-set and a compare write write registers of their own timer only. -/
theorem write_mem_modeSetTrace {l : Layout} {c : TimerCfg} {t u : UnitNo} {icr : Option Half} {sh : Shadow} {ie : Bool}
    {r : RegName} {v : RegValue} (h : Event.write u r v ∈ modeSetTrace l c t icr sh ie) : u = t := by
  simp only [modeSetTrace, modeEvents, List.mem_append, List.mem_singleton, List.mem_map, Event.write.injEq,
    reduceCtorEq, false_or, or_false] at h
  rcases h with (⟨_, -, rfl, -⟩ | commit) | ⟨rfl, -⟩
  · rfl
  · exact (write_mem_commitEvents commit).1
  · rfl

theorem write_mem_compareTrace {l : Layout} {c : TimerCfg} {t u : UnitNo} {mask : BitVec 3} {value : Half}
    {sh : Shadow} {ie : Bool} {r : RegName} {v : RegValue}
    (h : Event.write u r v ∈ compareTrace l c t mask value sh ie) : u = t := by
  simp only [compareTrace, List.mem_append, List.mem_singleton, reduceCtorEq, false_or, or_false] at h
  rcases h with compare | commit
  · exact (write_mem_compareEvents compare).1
  · exact (write_mem_commitEvents commit).1

/-! ## Stretches of trace that commit a shadow -/

/-- What a stretch of trace leaves in the control registers of timer `t` is the commit of shadow `sh` (R138). -/
def Commits (l : Layout) (c : TimerCfg) (t : UnitNo) (sh : Shadow) (evs : List Event) : Prop :=
  lastWrite t .ctrlA evs = some (.byte (composeA l c sh)) ∧ lastWrite t .ctrlB evs = some (.byte (composeB l c sh)) ∧
    lastWrite t .ctrlC evs = if c.is16 then some (.byte (composeC l c sh)) else none

/-- Around the commit, other events may stand before and after, but for a CTRL_C before it and control registers after
it. -/
theorem commits_append {l : Layout} {c : TimerCfg} {t : UnitNo} {sh : Shadow} {pre post : List Event}
    (before : lastWrite t .ctrlC pre = none)
    (after : ∀ r ∈ [RegName.ctrlA, .ctrlB, .ctrlC], lastWrite t r post = none) :
    Commits l c t sh (pre ++ commitEvents l c t sh ++ post) := by
  obtain ⟨ctrlA, ctrlB, ctrlC⟩ := lastWrite_commit l c t sh
  have afterA := after .ctrlA (by simp)
  have afterB := after .ctrlB (by simp)
  have afterC := after .ctrlC (by simp)
  refine ⟨?_, ?_, ?_⟩ <;> simp only [lastWrite_append, afterA, afterB, afterC, ctrlA, ctrlB, ctrlC, before] <;> simp

theorem commits_modeSetTrace (l : Layout) (c : TimerCfg) (t : UnitNo) (icr : Option Half) (sh : Shadow) (ie : Bool) :
    Commits l c t sh (modeSetTrace l c t icr sh ie) := by
  have shape : modeSetTrace l c t icr sh ie =
      ([Event.ie false] ++ icr.toList.map fun v => Event.write t .icr (.half v)) ++ commitEvents l c t sh ++
        [Event.write t .cnt (timerWide c 0), .ie ie] := by
    simp [modeSetTrace, modeEvents]
  rw [shape]
  exact commits_append (lastWrite_eq_none (by simp)) (by simp [lastWrite])

theorem commits_compareTrace (l : Layout) (c : TimerCfg) (t : UnitNo) (mask : BitVec 3) (value : Half) (sh : Shadow)
    (ie : Bool) : Commits l c t sh (compareTrace l c t mask value sh ie) := by
  refine commits_append (lastWrite_eq_none fun v h => ?_) (by simp [lastWrite])
  simp only [List.mem_append, List.mem_singleton, reduceCtorEq, false_or] at h
  obtain ⟨-, reg⟩ := write_mem_compareEvents h
  simp at reg

/-- A mode-set that is given a TOP leaves it in ICR (R149). -/
theorem lastWrite_icr_modeSetTrace (l : Layout) (c : TimerCfg) (t : UnitNo) (top : Half) (sh : Shadow) (ie : Bool) :
    lastWrite t .icr (modeSetTrace l c t (some top) sh ie) = some (.half top) := by
  have commit : lastWrite t .icr (commitEvents l c t sh) = none :=
    lastWrite_eq_none fun v h => by simpa using (write_mem_commitEvents h).2
  simp [modeSetTrace, modeEvents, lastWrite_append, commit, lastWrite]

/-- A compare write does not write ICR (R162). -/
theorem lastWrite_icr_compareTrace (l : Layout) (c : TimerCfg) (t : UnitNo) (mask : BitVec 3) (value : Half)
    (sh : Shadow) (ie : Bool) : lastWrite t .icr (compareTrace l c t mask value sh ie) = none := by
  refine lastWrite_eq_none fun v h => ?_
  simp only [compareTrace, List.mem_append, List.mem_singleton, reduceCtorEq, false_or, or_false] at h
  rcases h with compare | commit
  · simpa using (write_mem_compareEvents compare).2
  · simpa using (write_mem_commitEvents commit).2

/-! ## The registers as last written (R59, R138, R140, R149) -/

/-- One timer's part of `MirrorOk`: what trace `tr` says of its registers against its record `r`. -/
def TimerMirror (l : Layout) (c : TimerCfg) (t : UnitNo) (r : TimerRec) (tr : List Event) : Prop :=
  lastWrite t .ctrlA tr ∈ [none, some (.byte (composeA l c r.shadow))] ∧
  lastWrite t .ctrlB tr ∈ [none, some (.byte (composeB l c r.shadow))] ∧
  (c.is16 = true → lastWrite t .ctrlC tr ∈ [none, some (.byte (composeC l c r.shadow))]) ∧
  (c.is16 = false → lastWrite t .ctrlC tr = none) ∧
  (r.mode ≠ .unconfigured → lastWrite t .ctrlB tr ≠ none ∧ lastWrite t .ctrlA tr ≠ none ∧
    (c.is16 = true → lastWrite t .ctrlC tr ≠ none)) ∧
  (r.mode = .fastPwm → c.is16 = true → lastWrite t .icr tr = some (.half r.top))

theorem mirrorOk_iff (s : State) :
    MirrorOk s ↔ ∀ t, TimerMirror s.platform.layout (s.cfg t) t (s.timer t) s.trace := Iff.rfl

theorem lastWrite_append_of_no_write {t : UnitNo} {evs : List Event} (h : ∀ r v, Event.write t r v ∉ evs)
    (r : RegName) (tr : List Event) : lastWrite t r (tr ++ evs) = lastWrite t r tr := by
  rw [lastWrite_append, lastWrite_eq_none (h r), Option.none_or]

/-- Events that write no register of the timer change nothing. -/
theorem timerMirror_append {l : Layout} {c : TimerCfg} {t : UnitNo} {r : TimerRec} {tr evs : List Event}
    (h : ∀ r v, Event.write t r v ∉ evs) (ok : TimerMirror l c t r tr) : TimerMirror l c t r (tr ++ evs) := by
  unfold TimerMirror
  simp only [lastWrite_append_of_no_write h]
  exact ok

/-- After a stretch that commits the shadow of the timer's new record, the control registers are the shadow's. -/
theorem timerMirror_of_commits {l : Layout} {c : TimerCfg} {t : UnitNo} {r r' : TimerRec} {tr evs : List Event}
    (ok : TimerMirror l c t r tr) (commits : Commits l c t r'.shadow evs)
    (icr : r'.mode = .fastPwm → c.is16 = true → lastWrite t .icr (tr ++ evs) = some (.half r'.top)) :
    TimerMirror l c t r' (tr ++ evs) := by
  obtain ⟨-, -, -, unwritten, -, -⟩ := ok
  obtain ⟨ctrlA, ctrlB, ctrlC⟩ := commits
  have lastA := lastWrite_append t .ctrlA tr evs
  have lastB := lastWrite_append t .ctrlB tr evs
  have lastC := lastWrite_append t .ctrlC tr evs
  rw [ctrlA, Option.some_or] at lastA
  rw [ctrlB, Option.some_or] at lastB
  rw [ctrlC] at lastC
  refine ⟨by simp [lastA], by simp [lastB], fun wide => by simp [lastC, wide],
    fun narrow => by simp [lastC, narrow, unwritten narrow],
    fun _ => ⟨by simp [lastB], by simp [lastA], fun wide => by simp [lastC, wide]⟩, icr⟩

/-- The mirror stays when timer `t` gets a record and the trace a stretch that fit each other, and the stretch writes
no other timer. -/
theorem mirrorOk_set {s s' : State} {t : UnitNo} {r : TimerRec} {evs : List Event} (ok : MirrorOk s)
    (platform : s'.platform = s.platform) (timers : s'.timers = s.timers.set t.val r)
    (trace : s'.trace = s.trace ++ evs) (own : ∀ {u r v}, Event.write u r v ∈ evs → u = t)
    (fit : TimerMirror s.platform.layout (s.cfg t) t r (s.trace ++ evs)) : MirrorOk s' := by
  rw [mirrorOk_iff] at ok ⊢
  intro u
  rw [platform, cfg_congr platform, trace]
  by_cases hu : u = t
  · subst hu
    rw [timer_of_set_self timers]
    exact fit
  · rw [timer_of_set_ne timers hu]
    exact timerMirror_append (fun r v h => hu (own h)) (ok u)

/-- A mode-set leaves its timer's registers as its record says, when it writes its TOP to ICR wherever fast PWM on a
16-bit timer needs it. -/
theorem modeSet_keeps_mirrorOk {s : State} {t : UnitNo} {wgm : BitVec 4} {icr : Option Half} {mode : Mode}
    {top : Half} (ok : MirrorOk s) (written : mode = .fastPwm → (s.cfg t).is16 = true → icr = some top) :
    MirrorOk (critical (modeSetBody t wgm icr mode top) s) := by
  refine mirrorOk_set ok (by rw [modeSet_eq]) (timers_modeSet ..) (trace_modeSet ..) write_mem_modeSetTrace
    (timerMirror_of_commits ((mirrorOk_iff s).mp ok t) (commits_modeSetTrace ..) fun fast wide => ?_)
  rw [written fast wide, lastWrite_append, lastWrite_icr_modeSetTrace]
  rfl

/-- A compare write commits the shadow it leaves and keeps mode, TOP and ICR. -/
theorem compareWrite_keeps_mirrorOk {s : State} (ok : MirrorOk s) (t : UnitNo) (mask : BitVec 3) (inv : Bool)
    (v : Half) : MirrorOk (compareWrite t mask inv v s) := by
  refine mirrorOk_set ok (by rw [compareWrite_eq]) (timers_compareWrite ..) (trace_compareWrite ..)
    write_mem_compareTrace
    (timerMirror_of_commits ((mirrorOk_iff s).mp ok t) (commits_compareTrace ..) fun fast wide => ?_)
  obtain ⟨-, -, -, -, -, icr⟩ := ok t
  rw [lastWrite_append, lastWrite_icr_compareTrace, Option.none_or]
  exact icr fast wide

theorem step_keeps_mirrorOk {s s' : State} (h : step s = .next s') : MirrorOk s → MirrorOk s' := by
  refine step_keeps_timer_invariant (I := MirrorOk) ?congr ?pin ?stage ?normal ?fast ?compare h
  case congr =>
    intro s s' platform timers trace ok u
    rw [platform, cfg_congr platform, timer_congr timers, trace]
    exact ok u
  case pin =>
    intro p s ok
    rw [mirrorOk_iff] at ok ⊢
    exact fun u => timerMirror_append (by simp) (ok u)
  case stage =>
    intro t p s ok
    exact mirrorOk_set ok rfl rfl (List.append_nil _).symm (by simp)
      (timerMirror_append (by simp) ((mirrorOk_iff s).mp ok t))
  case normal =>
    intro t s ok
    exact modeSet_keeps_mirrorOk ok nofun
  case fast =>
    intro t top s ok
    exact modeSet_keeps_mirrorOk ok fun _ wide => by rw [if_pos wide]
  case compare =>
    intro t mask inv v s ok
    exact compareWrite_keeps_mirrorOk ok t mask inv v

/-! ## The reset state (R64) -/

theorem timer_reset (t : UnitNo) : State.reset.timer t = timerReset := by
  simp [State.timer, State.reset]

theorem gen_reset (g : UnitNo) : State.reset.gen g = genReset := by
  simp [State.gen, State.reset]

/-- Every row of P0's timer table has two channels where it is 8-bit, and a positive clock. -/
theorem timersP0_ok (t : UnitNo) :
    (timersP0[t.val].is16 = false → timersP0[t.val].nch = .two) ∧ 1 ≤ timersP0[t.val].fclk := by
  revert t; decide

/-- P0 is well formed (R7–R14). -/
theorem platformOk_platformP0 : PlatformOk platformP0 :=
  ⟨by decide, by decide, by decide, by decide, fun t _ => timersP0_ok t, by decide⟩

/-- The reset record is consistent for every layout and timer. -/
theorem recordOk_timerReset (l : Layout) (c : TimerCfg) : RecordOk l c timerReset := by
  refine ⟨⟨fun _ => ⟨rfl, rfl, rfl, rfl⟩, nofun, nofun⟩, ?_, fun _ => rfl⟩
  intro ch _
  cases ch <;> exact List.mem_cons_self

theorem genOk_genReset (p : Platform) : GenOk p genReset := nofun

/-- A timer at reset has an empty trace to agree with. -/
theorem timerMirror_timerReset (l : Layout) (c : TimerCfg) (t : UnitNo) : TimerMirror l c t timerReset [] :=
  ⟨List.mem_cons_self, List.mem_cons_self, fun _ => List.mem_cons_self, fun _ => rfl, fun h => absurd rfl h, nofun⟩

theorem inv_reset : Inv State.reset := by
  refine ⟨platformOk_platformP0, cbufOk_of_empty rfl, .inl rfl, fun t => ?_, fun g => ?_,
    (mirrorOk_iff _).mpr fun t => ?_⟩
  · rw [timer_reset]
    exact recordOk_timerReset ..
  · rw [gen_reset]
    exact genOk_genReset _
  · rw [timer_reset]
    exact timerMirror_timerReset ..

end Sys2Proof.Machine

open Sys2Proof.Machine

/-- Settles O54: each mode-set and each compare write ends in a commit of the shadow it leaves. -/
theorem stepKeepsPeripheralMirror : Obligations.StepKeepsPeripheralMirror := fun _ _ ok h => step_keeps_mirrorOk h ok

/-- Settles O15: every record of the reset state is the reset record, and its trace is empty. -/
theorem resetStateMeetsInvariant : Obligations.ResetStateMeetsInvariant := ⟨rfl, inv_reset⟩

end

section
/-! The family of 20_memory.md: every register write a step adds to the trace is of a register the timer has, at that
register's width (R72, R74), and of a timer that exists (R13). -/

namespace Sys2Proof.Machine

/-! ## Legal stretches of trace (R72, R74) -/

/-- Every register write of a stretch of trace is of a register its timer has, at that register's width. -/
def LegalWrites (p : Platform) (evs : List Event) : Prop := ∀ e ∈ evs, legalWrite p e = true

@[simp] theorem legalWrites_nil (p : Platform) : LegalWrites p [] := nofun

@[simp] theorem legalWrites_cons {p : Platform} {e : Event} {evs : List Event} :
    LegalWrites p (e :: evs) ↔ legalWrite p e = true ∧ LegalWrites p evs := List.forall_mem_cons

@[simp] theorem legalWrites_append {p : Platform} {x y : List Event} :
    LegalWrites p (x ++ y) ↔ LegalWrites p x ∧ LegalWrites p y := List.forall_mem_append

@[simp] theorem legalWrite_ie (p : Platform) (v : Bool) : legalWrite p (.ie v) = true := rfl

@[simp] theorem legalWrite_pinOut (p : Platform) (pin : Half) : legalWrite p (.pinOut pin) = true := rfl

theorem legalWrite_write {p : Platform} {t : UnitNo} {r : RegName} {v : RegValue} :
    legalWrite p (.write t r v) = true ↔ regWidth p.timers[t.val] r = some (regValueBytes v) := decide_eq_true_iff

/-- CNT takes a value at the timer's width (R74). -/
theorem regWidth_cnt (c : TimerCfg) (v : Half) : regWidth c .cnt = some (regValueBytes (timerWide c v)) := by
  cases wide : c.is16 <;> simp [regWidth, timerWide, regValueBytes, wide]

/-- The compare register of a present channel takes a value at the timer's width; a channel C is present on 16-bit
timers only (R9, R74). -/
theorem regWidth_ocrReg {c : TimerCfg} {ch : Channel} (present : chanPresent c ch = true) (v : Half) :
    regWidth c (ocrReg ch) = some (regValueBytes (timerWide c v)) := by
  cases ch with
  | A | B => exact regWidth_cnt c v
  | C =>
    obtain ⟨wide, three⟩ := Bool.and_eq_true_iff.mp present
    simp [ocrReg, regWidth, timerWide, regValueBytes, wide, of_decide_eq_true three]

theorem legalWrites_commitEvents (p : Platform) (l : Layout) (t : UnitNo) (sh : Shadow) :
    LegalWrites p (commitEvents l p.timers[t.val] t sh) := by
  unfold commitEvents
  cases wide : p.timers[t.val].is16 <;> simp [legalWrite_write, regWidth, regValueBytes, wide]

/-- A channel's write stands in the compare write only where the channel is present (R160). -/
theorem legalWrites_channelEvents (p : Platform) (t : UnitNo) (mask : BitVec 3) (v : Half) (ch : Channel) :
    LegalWrites p (channelEvents p.timers[t.val] t mask v ch) := by
  unfold channelEvents
  split
  next sel =>
    have present : chanPresent p.timers[t.val] ch = true := (Bool.and_eq_true_iff.mp sel).2
    exact legalWrites_cons.mpr ⟨legalWrite_write.mpr (regWidth_ocrReg present v), legalWrites_nil p⟩
  next => exact legalWrites_nil p

theorem compareEvents_eq_channelEvents (c : TimerCfg) (t : UnitNo) (mask : BitVec 3) (v : Half) :
    compareEvents c t mask v =
      channelEvents c t mask v .A ++ channelEvents c t mask v .B ++ channelEvents c t mask v .C := rfl

theorem legalWrites_compareTrace (p : Platform) (l : Layout) (t : UnitNo) (mask : BitVec 3) (v : Half) (sh : Shadow)
    (ie : Bool) : LegalWrites p (compareTrace l p.timers[t.val] t mask v sh ie) := by
  simp [compareTrace, compareEvents_eq_channelEvents, legalWrites_channelEvents, legalWrites_commitEvents]

/-- A mode-set is legal when it writes ICR on a 16-bit timer only (R72). -/
theorem legalWrites_modeSetTrace {p : Platform} {t : UnitNo} {icr : Option Half}
    (wide : icr.isSome = true → p.timers[t.val].is16 = true) (l : Layout) (sh : Shadow) (ie : Bool) :
    LegalWrites p (modeSetTrace l p.timers[t.val] t icr sh ie) := by
  have icrWrite : LegalWrites p (icr.toList.map fun v => Event.write t .icr (.half v)) := by
    cases icr with
    | none => exact legalWrites_nil p
    | some v => simp [legalWrite_write, regWidth, regValueBytes, wide rfl]
  simp [modeSetTrace, modeEvents, icrWrite, legalWrites_commitEvents, legalWrite_write, regWidth_cnt _ 0]

/-! ## What a stretch of the machine's work adds to the trace -/

/-- From `s` to `s'` the trace gains legal writes only, and of timers that satisfy `T` only. -/
def GainsWrites (p : Platform) (T : UnitNo → Prop) (s s' : State) : Prop :=
  ∃ evs, s'.trace = s.trace ++ evs ∧ LegalWrites p evs ∧ ∀ t r v, Event.write t r v ∈ evs → T t

theorem gainsWrites_of_trace_eq {p : Platform} {T : UnitNo → Prop} {s s' : State} (h : s'.trace = s.trace) :
    GainsWrites p T s s' := ⟨[], by simp [h], by simp, by simp⟩

theorem GainsWrites.trans {p : Platform} {T : UnitNo → Prop} {a b c : State} (ab : GainsWrites p T a b)
    (bc : GainsWrites p T b c) : GainsWrites p T a c := by
  obtain ⟨x, traceB, legalX, timersX⟩ := ab
  obtain ⟨y, traceC, legalY, timersY⟩ := bc
  refine ⟨x ++ y, by rw [traceC, traceB, List.append_assoc], legalWrites_append.mpr ⟨legalX, legalY⟩, ?_⟩
  intro t r v h
  exact (List.mem_append.mp h).elim (timersX t r v) (timersY t r v)

theorem gainsWrites_modeSet {T : UnitNo → Prop} {t : UnitNo} {icr : Option Half} {s : State}
    (wide : icr.isSome = true → (s.cfg t).is16 = true) (ht : T t) (wgm : BitVec 4) (mode : Mode) (top : Half) :
    GainsWrites s.platform T s (critical (modeSetBody t wgm icr mode top) s) :=
  ⟨_, trace_modeSet .., legalWrites_modeSetTrace wide _ _ _, fun _ _ _ h => write_mem_modeSetTrace h ▸ ht⟩

theorem gainsWrites_modeNormal {T : UnitNo → Prop} {t : UnitNo} (ht : T t) (s : State) :
    GainsWrites s.platform T s (modeNormal t s) := gainsWrites_modeSet (icr := none) nofun ht ..

/-- TMODEF gives a TOP to ICR on a 16-bit timer only (R149, R150). -/
theorem gainsWrites_modeFast {T : UnitNo → Prop} {t : UnitNo} (ht : T t) (top : Half) (s : State) :
    GainsWrites s.platform T s (modeFast t top s) :=
  gainsWrites_modeSet (by simp) ht ..

theorem gainsWrites_compareWrite {T : UnitNo → Prop} {t : UnitNo} (ht : T t) (mask : BitVec 3) (inv : Bool) (v : Half)
    (s : State) : GainsWrites s.platform T s (compareWrite t mask inv v s) :=
  ⟨_, trace_compareWrite .., legalWrites_compareTrace _ _ _ _ _ _ _, fun _ _ _ h => write_mem_compareTrace h ▸ ht⟩

/-- A pulse write stores a width, may count a draw, and then is a compare write on the timer of its slot (R198). -/
theorem pulseWrite_is_compareWrite (g : UnitNo) (x : Int) (s : State) :
    ∃ mask v s₁, pulseWrite g x s = compareWrite (s.gen g).timer mask false v s₁ ∧
      s₁.platform = s.platform ∧ s₁.trace = s.trace :=
  ⟨_, _, _, pulseWrite_eq g x s, rfl, rfl⟩

theorem gainsWrites_pulseWrite {p : Platform} {T : UnitNo → Prop} {g : UnitNo} {s : State}
    (platform : s.platform = p) (ht : T (s.gen g).timer) (x : Int) : GainsWrites p T s (pulseWrite g x s) := by
  obtain ⟨mask, v, s₁, pulse, same, trace⟩ := pulseWrite_is_compareWrite g x s
  have gains := gainsWrites_compareWrite ht mask false v s₁
  rw [same, platform] at gains
  rw [pulse]
  exact (gainsWrites_of_trace_eq trace).trans gains

@[simp] theorem requestWidth_platform (g : UnitNo) (f : GenRec → Ratio → Int) (x : Word) (s : State) :
    (requestWidth g f x s).2.platform = s.platform := by
  unfold requestWidth; split <;> rfl

@[simp] theorem requestWidth_trace (g : UnitNo) (f : GenRec → Ratio → Int) (x : Word) (s : State) :
    (requestWidth g f x s).2.trace = s.trace := by
  unfold requestWidth; split <;> rfl

/-- A pulse command that computes its width without touching parameters, slots and trace writes the timer of its
slot. -/
theorem gainsWrites_pulseCommand {T : UnitNo → Prop} {g : UnitNo} {s : State} {xs : Int × State}
    (ht : T (s.gen g).timer) (platform : xs.2.platform = s.platform) (gens : xs.2.gens = s.gens)
    (trace : xs.2.trace = s.trace) : GainsWrites s.platform T s (pulseCommand g xs) := by
  rw [← gen_congr gens] at ht
  have pulse := gainsWrites_pulseWrite platform ht xs.1
  exact (gainsWrites_of_trace_eq trace).trans (pulse.trans (gainsWrites_of_trace_eq (setResult_trace ..)))

theorem gainsWrites_configureTimer {T : UnitNo → Prop} {t : UnitNo} (ht : T t) (p : Prescaler) (n : Nat) (s : State) :
    GainsWrites s.platform T s (configureTimer t p n s) := by
  unfold configureTimer
  split
  · exact gainsWrites_of_trace_eq rfl
  · exact gainsWrites_modeFast ht _ (stagePrescaler t p s)

/-- An SINIT requests its pin and writes the timer its pin is bound to (R180, R192, R198). -/
theorem gainsWrites_constructGenerator {T : UnitNo → Prop} {t : UnitNo} (ht : T t) (g : UnitNo)
    (pin mn mx init : Half) (ch : Channel) (p : Prescaler) (n : Nat) (s : State) :
    GainsWrites s.platform T s (constructGenerator g pin mn mx init t ch p n s) := by
  have request : GainsWrites s.platform T s
      (emit (.pinOut pin) (setGen g (newGenerator pin mn mx t ch n (s.gen g).pw) s)) :=
    ⟨[.pinOut pin], rfl, by simp, by simp⟩
  refine (request.trans (gainsWrites_configureTimer ht p n _)).trans
    (gainsWrites_pulseWrite (configureTimer_platform ..) ?_ _)
  rw [gen_congr (configureTimer_gens ..), gen_congr (emit_gens ..), gen_setGen_self]
  exact ht

/-! ## Timers that exist (R7, R13) -/

/-- Timer `t` exists, if the platform is well formed and the slots are as constructed. -/
def TimerExists (s : State) (t : UnitNo) : Prop :=
  PlatformOk s.platform → GensOk s → t.val < s.platform.numTimers

/-- The pins of a well-formed platform are bound to timers that exist (R13). -/
theorem timer_lt_of_lookup {p : Platform} {pin : Half} {t : UnitNo} {ch : Channel} (ok : PlatformOk p)
    (bound : p.pinMap.lookup pin = some (t, ch)) : t.val < p.numTimers := by
  obtain ⟨-, -, -, -, -, pins⟩ := ok
  obtain ⟨before, after, split, -⟩ := List.lookup_eq_some_iff.mp bound
  exact pins (pin, t, ch) (by simp [split])

/-- The check of a timer command's unit (R106). -/
theorem timerExists_of_unit {s : State} {t : UnitNo} (unit : decide (t.val < s.platform.numTimers) = true) :
    TimerExists s t := fun _ _ => of_decide_eq_true unit

theorem timerExists_of_pin {s : State} {pin : Half} {t : UnitNo} {ch : Channel}
    (bound : s.platform.pinMap.lookup pin = some (t, ch)) : TimerExists s t :=
  fun ok _ => timer_lt_of_lookup ok bound

/-- A constructed slot has the timer of a pin in `PIN_MAP` (R51). -/
theorem timerExists_of_valid {s : State} {g : UnitNo} (valid : (s.gen g).valid = true) :
    TimerExists s (s.gen g).timer := by
  intro ok gens
  obtain ⟨-, -, -, -, bound, -⟩ := genOk_boundOk (gens g) valid
  exact timer_lt_of_lookup ok bound

/-! ## Every command and every step -/

theorem unitFits_of_fits {p : Platform} {i : Instr} (h : i.fits p = true) : i.unitFits p = true := by
  simp only [Instr.fits, Bool.and_eq_true] at h
  obtain ⟨⟨-, unit⟩, -⟩ := h
  exact unit

/-- A command that completes writes legally, on its own timer, its slot's or its pin's. -/
theorem gainsWrites_of_completes {i : Instr} {s s' : State} (fits : i.fits s.platform = true)
    (h : Completes i s s') : GainsWrites s.platform (TimerExists s) s s' := by
  have unit := unitFits_of_fits fits
  cases i with
  | tsetps t p =>
    obtain ⟨ps, -, rfl⟩ := h
    exact gainsWrites_of_trace_eq rfl
  | tmoden t =>
    cases h
    exact gainsWrites_modeNormal (timerExists_of_unit unit) s
  | tmodef t top =>
    cases h
    exact gainsWrites_modeFast (timerExists_of_unit unit) top s
  | tsetcmp t mask inv v =>
    cases h
    exact gainsWrites_compareWrite (timerExists_of_unit unit) mask inv v s
  | tquery t =>
    cases h
    exact gainsWrites_of_trace_eq rfl
  | sinit g pin mn mx init =>
    obtain ⟨t, ch, p, n, bound, -, rfl⟩ := h
    exact gainsWrites_constructGenerator (timerExists_of_pin bound) ..
  | ssetpw g pw =>
    obtain ⟨valid, rfl⟩ := h
    exact gainsWrites_pulseCommand (timerExists_of_valid valid) rfl rfl rfl
  | ssetang g x =>
    obtain ⟨valid, rfl⟩ := h
    exact gainsWrites_pulseCommand (timerExists_of_valid valid) (by simp) (by simp) (by simp)
  | ssetpos g x =>
    obtain ⟨valid, rfl⟩ := h
    exact gainsWrites_pulseCommand (timerExists_of_valid valid) (by simp) (by simp) (by simp)
  | squery g =>
    obtain ⟨-, rfl⟩ := h
    exact gainsWrites_of_trace_eq rfl

theorem exec_gainsWrites {i : Instr} {s s' : State} (h : exec i s = .next s') :
    GainsWrites s.platform (TimerExists s) s s' := by
  rcases exec_cases h with ⟨e, rfl⟩ | ⟨fits, completes⟩
  · exact gainsWrites_of_trace_eq rfl
  · exact gainsWrites_of_completes fits completes

/-- Taking words and raising an error add no event, so a step gains what its command does. -/
theorem step_gainsWrites {s s' : State} (h : step s = .next s') :
    GainsWrites s.platform (TimerExists s) s s' := by
  rcases step_cases h with ⟨-, rfl⟩ | ⟨w, rest, -, -, rfl⟩ | ⟨w, rest, e, -, -, rfl⟩ |
    ⟨w, rest, i, r, -, -, executed⟩
  · exact gainsWrites_of_trace_eq rfl
  · exact gainsWrites_of_trace_eq rfl
  · exact gainsWrites_of_trace_eq rfl
  · have gains := exec_gainsWrites executed
    exact (gainsWrites_of_trace_eq (consume_trace ..)).trans gains

end Sys2Proof.Machine

open Sys2Proof.Machine

/-- Settles O29: each mode-set and compare write writes registers of one timer, which the command's check, the pin
table or the slot's construction vouches for. -/
theorem registerWritesFitTimer : Obligations.RegisterWritesFitTimer := by
  intro s s' h
  obtain ⟨evs, trace, legal, timers⟩ := step_gainsWrites h
  exact ⟨evs, trace, legal, fun platform gens t r v written => timers t r v written platform gens⟩

end

section
/-! The family of 30_encoding.md: the two directions of the round trip between commands and their words, the words a
step takes from the port, and the causes of the command errors. -/

namespace Sys2Proof

/-! ## Fields inside fields (R101) -/

/-- A field of a field is a field of the word. -/
theorem extractLsb'_field {w : Nat} (x : BitVec w) {i n j m : Nat} (inside : j + m ≤ n) :
    (x.extractLsb' i n).extractLsb' j m = x.extractLsb' (i + j) m := by
  ext k hk
  simp only [BitVec.getElem_extractLsb', BitVec.getLsbD_extractLsb', show j + k < n by omega, Nat.add_assoc,
    decide_true, Bool.true_and]

theorem setWidth_eq_zero_append (p : BitVec 3) : p.setWidth 16 = (0 : BitVec 13) ++ p := by
  revert p
  decide

/-- The prescaler code of a TSETPS is read back from its header, and the bits above it are 0 (R107, R113). -/
theorem prescaler_headerWord (op : Opcode) (u : UnitNo) (a : BitVec 4) (p : BitVec 3) :
    (headerWord op u a (p.setWidth 16)).extractLsb' 0 3 = p ∧
      (headerWord op u a (p.setWidth 16)).extractLsb' 3 13 = 0 := by
  have code := extractLsb'_field (headerWord op u a (p.setWidth 16)) (i := 0) (n := 16) (j := 0) (m := 3) (by decide)
  have reserved :=
    extractLsb'_field (headerWord op u a (p.setWidth 16)) (i := 0) (n := 16) (j := 3) (m := 13) (by decide)
  rw [← immField, immField_headerWord] at code reserved
  rw [← code, ← reserved, setWidth_eq_zero_append]
  exact ⟨BitVec.extractLsb'_append_eq_right, BitVec.extractLsb'_append_eq_left⟩

/-- The mask and the polarity of a TSETCMP are read back from its header (R108). -/
theorem compare_headerWord (op : Opcode) (u : UnitNo) (inv : Bool) (mask : BitVec 3) (m : Half) :
    (headerWord op u (BitVec.ofBool inv ++ mask) m).extractLsb' 16 3 = mask ∧
      (headerWord op u (BitVec.ofBool inv ++ mask) m).getLsbD 19 = inv := by
  have low :=
    extractLsb'_field (headerWord op u (BitVec.ofBool inv ++ mask) m) (i := 16) (n := 4) (j := 0) (m := 3) (by decide)
  rw [← auxField, auxField_headerWord] at low
  rw [← low, headerWord_bit, if_neg (by decide), if_pos (by decide)]
  clear low
  revert inv mask
  decide

theorem ofBool_getLsbD {w : Nat} (x : BitVec w) (i : Nat) : BitVec.ofBool (x.getLsbD i) = x.extractLsb' i 1 := by
  ext k hk
  simp [show k = 0 by omega]

/-- `imm16` of a TSETPS: the reserved bits and the prescaler code (R107, R113). -/
theorem immField_eq_append (h : Word) : immField h = h.extractLsb' 3 13 ++ h.extractLsb' 0 3 :=
  (BitVec.extractLsb'_append_extractLsb'_eq_extractLsb' (len₁ := 3) (len₂ := 13) rfl).symm

/-- `aux` of a TSETCMP: the polarity and the mask (R108). -/
theorem auxField_eq_append (h : Word) : auxField h = BitVec.ofBool (h.getLsbD 19) ++ h.extractLsb' 16 3 := by
  rw [ofBool_getLsbD]
  exact (BitVec.extractLsb'_append_extractLsb'_eq_extractLsb' (len₁ := 3) (len₂ := 1) rfl).symm

theorem highHalf_append_lowHalf (w : Word) : highHalf w ++ lowHalf w = w :=
  BitVec.extractLsb'_append_extractLsb' (w := 16) (len := 16)

/-! ## The reserved fields (R113) -/

/-- The mask of the field of `len` bits from bit `start` up. -/
def fieldMask (start len : Nat) : Word := (BitVec.allOnes len).setWidth 32 <<< start

theorem getLsbD_fieldMask {start len i : Nat} (hi : i < 32) :
    (fieldMask start len).getLsbD i = true ↔ start ≤ i ∧ i < start + len := by
  simp [fieldMask, hi]
  omega

theorem and_fieldMask_eq_zero (w : Word) {start len : Nat} (fits : start + len ≤ 32) :
    w &&& fieldMask start len = 0 ↔ w.extractLsb' start len = 0 := by
  constructor
  · intro clear
    ext k hk
    have masked : (fieldMask start len).getLsbD (start + k) = true := (getLsbD_fieldMask (by omega)).mpr (by omega)
    have bit := congrArg (·.getLsbD (start + k)) clear
    simpa [masked] using bit
  · intro clear
    refine and_mask_eq_zero _ _ fun i hi masked => ?_
    obtain ⟨above, below⟩ := (getLsbD_fieldMask hi).mp masked
    have bit := congrArg (·.getLsbD (i - start)) clear
    simpa [show i - start < len by omega, Nat.add_sub_cancel' above] using bit

theorem and_fieldMasks_eq_zero (w : Word) {i n j m : Nat} (fits : i + n ≤ 32) (fits' : j + m ≤ 32) :
    w &&& (fieldMask i n ||| fieldMask j m) = 0 ↔ w.extractLsb' i n = 0 ∧ w.extractLsb' j m = 0 := by
  rw [BitVec.and_or_distrib_left]
  exact BitVec.or_eq_zero_iff.trans (and_congr (and_fieldMask_eq_zero w fits) (and_fieldMask_eq_zero w fits'))

theorem and_auxMask_eq_zero (w : Word) : w &&& 0x000F0000 = 0 ↔ auxField w = 0 := by
  rw [show (0x000F0000 : Word) = fieldMask 16 4 by decide]
  exact and_fieldMask_eq_zero w (by decide)

theorem and_auxImmMask_eq_zero (w : Word) : w &&& 0x000FFFFF = 0 ↔ auxField w = 0 ∧ immField w = 0 := by
  rw [show (0x000FFFFF : Word) = fieldMask 16 4 ||| fieldMask 0 16 by decide]
  exact and_fieldMasks_eq_zero w (by decide) (by decide)

theorem and_tsetpsMask_eq_zero (w : Word) : w &&& 0x000FFFF8 = 0 ↔ auxField w = 0 ∧ w.extractLsb' 3 13 = 0 := by
  rw [show (0x000FFFF8 : Word) = fieldMask 16 4 ||| fieldMask 3 13 by decide]
  exact and_fieldMasks_eq_zero w (by decide) (by decide)

theorem and_highMask_eq_zero (w : Word) : w &&& 0xFFFF0000 = 0 ↔ highHalf w = 0 := by
  rw [show (0xFFFF0000 : Word) = fieldMask 16 16 by decide]
  exact and_fieldMask_eq_zero w (by decide)

/-- Every reserved field of a command with header `h` and third word `third` is 0: the list of R113. -/
def ReservedClear (op : Opcode) (h third : Word) : Prop :=
  match op with
  | .tsetps => auxField h = 0 ∧ h.extractLsb' 3 13 = 0
  | .tmoden => auxField h = 0 ∧ immField h = 0
  | .tmodef => auxField h = 0
  | .tsetcmp => True
  | .tquery => auxField h = 0 ∧ immField h = 0
  | .sinit => auxField h = 0 ∧ highHalf third = 0
  | .ssetpw => auxField h = 0
  | .ssetang => auxField h = 0 ∧ immField h = 0
  | .ssetpos => auxField h = 0 ∧ immField h = 0
  | .squery => auxField h = 0 ∧ immField h = 0

/-- The masks of the decoder say that the fields of R113 are 0. -/
theorem reservedSet_eq_false_iff (op : Opcode) (h third : Word) :
    reservedSet op h third = false ↔ ReservedClear op h third := by
  have masks : reservedSet op h third = false ↔
      h &&& reservedHeader op = 0 ∧ third &&& reservedThird op = 0 := by
    simp [reservedSet]
  rw [masks]
  have noThird : third &&& 0 = 0 := BitVec.and_zero
  cases op with
  | tsetps => exact (and_iff_left noThird).trans (and_tsetpsMask_eq_zero h)
  | tmoden | tquery | ssetang | ssetpos | squery => exact (and_iff_left noThird).trans (and_auxImmMask_eq_zero h)
  | tmodef | ssetpw => exact (and_iff_left noThird).trans (and_auxMask_eq_zero h)
  | tsetcmp => exact iff_true_intro ⟨BitVec.and_zero, noThird⟩
  | sinit => exact and_congr (and_auxMask_eq_zero h) (and_highMask_eq_zero third)

/-! ## The decoder on a whole command (R104, R113, R115) -/

/-- The words of a command of a defined opcode decode unless a reserved bit is set. -/
theorem decode_of_opcode {op : Opcode} {h : Word} {tl : List Word} (opcode : opField h = opcodeByte op)
    (complete : opLen (opcodeByte op) ≤ tl.length + 1) :
    decode (h :: tl) =
      if reservedSet op h (tl.getD 1 0) then .error .reserved
      else .ok (instrOf op h (tl.getD 0 0) (tl.getD 1 0), tl.drop (opLen (opcodeByte op) - 1)) := by
  rw [decode_cons, opcode, opcodeOf_opcodeByte]
  exact if_neg (by omega)

/-- A byte that is no opcode's is illegal. -/
theorem opcodeOf_eq_none {b : Byte} (h : ∀ op, b ≠ opcodeByte op) : opcodeOf b = none :=
  Option.eq_none_iff_forall_ne_some.mpr fun op named => h op (opcodeOf_eq_some named)

/-- The words of a command with header `h`: of `second` and `third` those its opcode has (R104). -/
def commandWords (op : Opcode) (h second third : Word) : List Word :=
  h :: [second, third].take (opLen (opcodeByte op) - 1)

/-- The words of a command with no reserved bit set decode, whatever words follow. -/
theorem decode_commandWords {op : Opcode} {h third : Word} (second : Word) (rest : List Word)
    (opcode : opField h = opcodeByte op) (clear : ReservedClear op h third) :
    decode (commandWords op h second third ++ rest) = .ok (instrOf op h second third, rest) := by
  let tl := [second, third].take (opLen (opcodeByte op) - 1) ++ rest
  have complete : opLen (opcodeByte op) ≤ tl.length + 1 := by
    cases op <;> simp [tl, opLen, opcodeByte]
  have unreserved : reservedSet op h (tl.getD 1 0) = false := by
    refine (reservedSet_eq_false_iff ..).mpr ?_
    cases op <;> exact clear
  have command : instrOf op h (tl.getD 0 0) (tl.getD 1 0) = instrOf op h second third := by
    cases op <;> rfl
  have remaining : tl.drop (opLen (opcodeByte op) - 1) = rest := by
    cases op <;> rfl
  calc decode (h :: tl)
    _ = .ok (instrOf op h (tl.getD 0 0) (tl.getD 1 0), tl.drop (opLen (opcodeByte op) - 1)) := by
      rw [decode_of_opcode opcode complete, unreserved]
      rfl
    _ = .ok (instrOf op h second third, rest) := by rw [command, remaining]

theorem take_getD_append_drop (tl : List Word) {k : Nat} (short : k ≤ 2) (long : k ≤ tl.length) :
    [tl.getD 0 0, tl.getD 1 0].take k ++ tl.drop k = tl := by
  match k, tl, short, long with
  | 0, tl, _, _ => rfl
  | 1, a :: tl, _, _ => rfl
  | 2, a :: b :: tl, _, _ => rfl

/-- Words that decode are those of a command with no reserved bit set. -/
theorem commandWords_of_decode {ws rest : List Word} {i : Instr} (decoded : decode ws = .ok (i, rest)) :
    ∃ op h second third, opField h = opcodeByte op ∧ ReservedClear op h third ∧
      i = instrOf op h second third ∧ ws = commandWords op h second third ++ rest := by
  obtain ⟨h, tl, op, rfl, opcode, complete, clear, rfl, rfl⟩ := decode_ok decoded
  have atMost := Machine.opLen_le_three (opcodeByte op)
  exact ⟨op, h, tl.getD 0 0, tl.getD 1 0, opcode, (reservedSet_eq_false_iff ..).mp clear, rfl,
    congrArg (h :: ·) (take_getD_append_drop tl (by omega) (by omega)).symm⟩

/-! ## Commands and their words (R107–R112) -/

/-- A command is what some words with no reserved bit set stand for, and those words are its encoding. -/
theorem exists_commandWords (i : Instr) :
    ∃ op h second third, opField h = opcodeByte op ∧ ReservedClear op h third ∧
      instrOf op h second third = i ∧ encode i = commandWords op h second third := by
  cases i with
  | tsetps t p =>
    obtain ⟨code, reserved⟩ := prescaler_headerWord .tsetps t 0 p
    exact ⟨.tsetps, headerWord .tsetps t 0 (p.setWidth 16), 0, 0, by simp, ⟨by simp, reserved⟩,
      by simp only [instrOf, unitField_headerWord, code], rfl⟩
  | tmoden t =>
    exact ⟨.tmoden, headerWord .tmoden t 0 0, 0, 0, by simp, by simp [ReservedClear], by simp [instrOf], rfl⟩
  | tmodef t top =>
    exact ⟨.tmodef, headerWord .tmodef t 0 top, 0, 0, by simp, by simp [ReservedClear], by simp [instrOf], rfl⟩
  | tsetcmp t mask inv value =>
    obtain ⟨maskField, polarity⟩ := compare_headerWord .tsetcmp t inv mask value
    exact ⟨.tsetcmp, headerWord .tsetcmp t (BitVec.ofBool inv ++ mask) value, 0, 0, by simp, trivial,
      by simp only [instrOf, unitField_headerWord, immField_headerWord, maskField, polarity], rfl⟩
  | tquery t =>
    exact ⟨.tquery, headerWord .tquery t 0 0, 0, 0, by simp, by simp [ReservedClear], by simp [instrOf], rfl⟩
  | sinit g pin mn mx init =>
    exact ⟨.sinit, headerWord .sinit g 0 pin, mx ++ mn, 0 ++ init, by simp, by simp [ReservedClear],
      by simp [instrOf], rfl⟩
  | ssetpw g pw =>
    exact ⟨.ssetpw, headerWord .ssetpw g 0 pw, 0, 0, by simp, by simp [ReservedClear], by simp [instrOf], rfl⟩
  | ssetang g x =>
    exact ⟨.ssetang, headerWord .ssetang g 0 0, x, 0, by simp, by simp [ReservedClear], by simp [instrOf], rfl⟩
  | ssetpos g x =>
    exact ⟨.ssetpos, headerWord .ssetpos g 0 0, x, 0, by simp, by simp [ReservedClear], by simp [instrOf], rfl⟩
  | squery g =>
    exact ⟨.squery, headerWord .squery g 0 0, 0, 0, by simp, by simp [ReservedClear], by simp [instrOf], rfl⟩

/-- The encoding of the command that words with no reserved bit set stand for is those words. -/
theorem encode_instrOf {op : Opcode} {h third : Word} (second : Word) (opcode : opField h = opcodeByte op)
    (clear : ReservedClear op h third) :
    encode (instrOf op h second third) = commandWords op h second third := by
  have header := headerWord_fields h op opcode
  cases op with
  | tsetps =>
    obtain ⟨aux, reserved⟩ := clear
    rw [aux, immField_eq_append, reserved, ← setWidth_eq_zero_append] at header
    exact congrArg ([·]) header
  | tmoden | tquery | squery =>
    obtain ⟨aux, imm⟩ := clear
    rw [aux, imm] at header
    exact congrArg ([·]) header
  | tmodef | ssetpw =>
    rw [show auxField h = 0 from clear] at header
    exact congrArg ([·]) header
  | tsetcmp =>
    rw [auxField_eq_append] at header
    exact congrArg ([·]) header
  | sinit =>
    obtain ⟨aux, high⟩ := clear
    have bounds := highHalf_append_lowHalf second
    have init := highHalf_append_lowHalf third
    rw [aux] at header
    rw [high] at init
    simp only [encode, instrOf, header, bounds, init]
    rfl
  | ssetang | ssetpos =>
    obtain ⟨aux, imm⟩ := clear
    rw [aux, imm] at header
    exact congrArg ([·, second]) header

end Sys2Proof

namespace Sys2Proof.Machine

/-! ## Steps that execute no command (R36, R37, R113, R115) -/

theorem step_incomplete {s : State} {w : Word} {port : List Word} (hp : s.port = w :: port)
    (incomplete : decode (s.cbuf ++ [w]) = .error .incomplete) :
    step s = .next { s with port := port, cbuf := s.cbuf ++ [w] } := by
  unfold step fetch
  simp only [hp, incomplete]

theorem step_illegalOpcode {s : State} {w : Word} {port : List Word} (hp : s.port = w :: port)
    (illegal : decode (s.cbuf ++ [w]) = .error .illegalOpcode) :
    step s = .next (raiseError .illegalOpcode (consume (lenOf (s.cbuf ++ [w])) port s)) := by
  unfold step fetch
  simp only [hp, illegal]

theorem step_reserved {s : State} {w : Word} {port : List Word} (hp : s.port = w :: port)
    (reserved : decode (s.cbuf ++ [w]) = .error .reserved) :
    step s = .next (raiseError .reserved (consume (lenOf (s.cbuf ++ [w])) port s)) := by
  unfold step fetch
  simp only [hp, reserved]

/-! ## Every step answers (R230) -/

theorem withTimer_answers (t : UnitNo) (s : State) (k : State → State) : ∃ s', withTimer t s k = .next s' := by
  unfold withTimer
  split <;> exact ⟨_, rfl⟩

theorem withGenerator_answers (g : UnitNo) (s : State) (k : State → State) :
    ∃ s', withGenerator g s k = .next s' := by
  unfold withGenerator
  split
  · split <;> exact ⟨_, rfl⟩
  · exact ⟨_, rfl⟩

theorem execSinit_answers (g : UnitNo) (pin mn mx init : Half) (s : State) :
    ∃ s', execSinit g pin mn mx init s = .next s' := by
  unfold execSinit
  split
  · split
    · exact ⟨_, rfl⟩
    · split <;> exact ⟨_, rfl⟩
  · exact ⟨_, rfl⟩

theorem exec_answers (i : Instr) (s : State) : ∃ s', exec i s = .next s' := by
  cases i with
  | tsetps t p => rw [exec_tsetps]; exact withTimer_answers t s _
  | tmoden t => rw [exec_tmoden]; exact withTimer_answers t s _
  | tmodef t top => rw [exec_tmodef]; exact withTimer_answers t s _
  | tsetcmp t mask inv value => rw [exec_tsetcmp]; exact withTimer_answers t s _
  | tquery t => rw [exec_tquery]; exact withTimer_answers t s _
  | sinit g pin mn mx init => exact execSinit_answers g pin mn mx init s
  | ssetpw g pw => rw [exec_ssetpw]; exact withGenerator_answers g s _
  | ssetang g x => rw [exec_ssetang]; exact withGenerator_answers g s _
  | ssetpos g x => rw [exec_ssetpos]; exact withGenerator_answers g s _
  | squery g => rw [exec_squery]; exact withGenerator_answers g s _

theorem step_answers (s : State) : ∃ s', step s = .next s' := by
  unfold step
  cases fetch s with
  | waiting => exact ⟨_, rfl⟩
  | buffered s' => exact ⟨_, rfl⟩
  | illegal e s' => exact ⟨_, rfl⟩
  | command i s' => exact exec_answers i s'

/-! ## The causes of the command errors (R106, R107, R232) -/

theorem withTimer_badUnit {t : UnitNo} {s : State} (k : State → State)
    (absent : decide (t.val < s.platform.numTimers) = false) :
    withTimer t s k = .next (raiseError .badUnit s) :=
  if_neg (of_decide_eq_false absent)

theorem withGenerator_badUnit {g : UnitNo} {s : State} (k : State → State)
    (absent : decide (g.val < s.platform.numGenerators) = false) :
    withGenerator g s k = .next (raiseError .badUnit s) :=
  if_neg (of_decide_eq_false absent)

theorem withGenerator_unconstructed {g : UnitNo} {s : State} (k : State → State)
    (hg : g.val < s.platform.numGenerators) (invalid : (s.gen g).valid = false) :
    withGenerator g s k = .next (raiseError .unconstructed s) := by
  simp [withGenerator, hg, invalid]

theorem exec_badUnit {i : Instr} {s : State} (absent : i.unitFits s.platform = false) :
    exec i s = .next (raiseError .badUnit s) := by
  cases i with
  | tsetps t p => exact (exec_tsetps ..).trans (withTimer_badUnit _ absent)
  | tmoden t => exact (exec_tmoden ..).trans (withTimer_badUnit _ absent)
  | tmodef t top => exact (exec_tmodef ..).trans (withTimer_badUnit _ absent)
  | tsetcmp t mask inv value => exact (exec_tsetcmp ..).trans (withTimer_badUnit _ absent)
  | tquery t => exact (exec_tquery ..).trans (withTimer_badUnit _ absent)
  | sinit g pin mn mx init => exact if_neg (of_decide_eq_false absent)
  | ssetpw g pw => exact (exec_ssetpw ..).trans (withGenerator_badUnit _ absent)
  | ssetang g x => exact (exec_ssetang ..).trans (withGenerator_badUnit _ absent)
  | ssetpos g x => exact (exec_ssetpos ..).trans (withGenerator_badUnit _ absent)
  | squery g => exact (exec_squery ..).trans (withGenerator_badUnit _ absent)

theorem exec_badPrescaler {t : UnitNo} {p : BitVec 3} {s : State} (ht : t.val < s.platform.numTimers)
    (code : 5 ≤ p.toNat) : exec (.tsetps t p) s = .next (raiseError .badPrescaler s) := by
  rw [exec_tsetps, withTimer_next _ ht, psOfCode_none code]

theorem exec_badPin {g : UnitNo} {pin : Half} {s : State} (mn mx init : Half)
    (hg : g.val < s.platform.numGenerators) (unmapped : s.platform.pinMap.lookup pin = none) :
    exec (.sinit g pin mn mx init) s = .next (raiseError .badPin s) := by
  simp only [exec, execSinit, if_pos hg, unmapped]

theorem exec_badClock {g : UnitNo} {pin : Half} {s : State} {t : UnitNo} {ch : Channel} (mn mx init : Half)
    (hg : g.val < s.platform.numGenerators) (mapped : s.platform.pinMap.lookup pin = some (t, ch))
    (impossible : autoTune (s.cfg t).fclk = none) :
    exec (.sinit g pin mn mx init) s = .next (raiseError .badClock s) := by
  simp only [exec, execSinit, if_pos hg, mapped, impossible]

/-- The prescaler and the tick count selected, with the constants of R15 written out (R186). -/
theorem autoTuneSelect_eq (f : Nat) :
    autoTuneSelect f =
      if 65535 < f / 400 then (.div64, f / 3200) else if f / 400 < 20000 then (.none, f / 50) else (.div8, f / 400) :=
  rfl

/-- The three impossible ranges of a clock: too few ticks undivided, too many undivided, too many divided by 64
(R187). -/
theorem autoTune_eq_none_iff (f : Nat) :
    autoTune f = none ↔ f < 50 ∨ (3276850 ≤ f ∧ f < 8000000) ∨ 209718400 ≤ f := by
  have illegal : autoTune f = none ↔ (autoTuneSelect f).2 < 1 ∨ 65536 < (autoTuneSelect f).2 := by
    simp only [autoTune, ite_eq_left_iff, reduceCtorEq, imp_false, not_not]
  rw [illegal, autoTuneSelect_eq]
  split_ifs <;> dsimp only <;> omega

end Sys2Proof.Machine

open Sys2Proof Sys2Proof.Machine

/-- Settles O2: a command is what its words stand for, and words with no reserved bit set decode to what they stand
for. -/
theorem decodeOfEncode : Obligations.DecodeOfEncode := by
  intro i rest
  obtain ⟨op, h, second, third, opcode, clear, rfl, words⟩ := exists_commandWords i
  rw [words, decode_commandWords second rest opcode clear]

/-- Settles O3: words that decode have no reserved bit set, and the operands give back every other bit. -/
theorem encodeOfDecode : Obligations.EncodeOfDecode := by
  intro ws i rest decoded
  obtain ⟨op, h, second, third, opcode, clear, rfl, words⟩ := commandWords_of_decode decoded
  rw [words, encode_instrOf second opcode clear]

/-- Settles O1: a step that takes a word buffers it or consumes the words received, and decoding tells which by their
number. -/
theorem lengthDecodeCollectsWords : Obligations.LengthDecodeCollectsWords := by
  refine ⟨fun _ => rfl, fun s w port ok hp => ⟨fun short => ?_, fun complete => ?_, length_le_lenOf_append ok w⟩⟩
  · exact step_incomplete hp ((decode_append_incomplete _ _).mpr short)
  · obtain ⟨s', h⟩ := step_answers s
    rcases step_words ok h with ⟨waiting, -⟩ | ⟨w', hp', taken⟩
    · simp [hp] at waiting
    · obtain ⟨rfl, rfl⟩ := List.cons.inj (hp.symm.trans hp')
      rcases taken with ⟨short, -⟩ | ⟨cbuf, csp⟩
      · exact absurd complete (Nat.ne_of_lt short)
      · exact ⟨s', h, cbuf, rfl, csp.trans (congrArg (s.csp + ·) complete)⟩

/-- Settles O5: a byte outside the map is no opcode's, so its word is one word long and raises. -/
theorem illegalOpcodesRaise : Obligations.IllegalOpcodesRaise := by
  refine ⟨fun s h port empty hp outside => ?_, by decide, by decide⟩
  have unnamed : opcodeOf (opField h) = none := by
    apply opcodeOf_eq_none
    intro op named
    rw [named] at outside
    cases op <;> simp [opcodeByte] at outside
  have illegal : decode (s.cbuf ++ [h]) = .error .illegalOpcode := by
    rw [empty, List.nil_append, decode_cons, unnamed]
  have length : lenOf (s.cbuf ++ [h]) = 1 := by
    rw [empty]
    exact opLen_of_opcodeOf_none unnamed
  rw [step_illegalOpcode hp illegal, length, consume, ← empty]
  rfl

/-- Settles O6: a complete command with a reserved field set is not clear of reserved bits. -/
theorem reservedFieldsRaise : Obligations.ReservedFieldsRaise := by
  intro s w port ws op hp words opcode length nonzero
  have unclear : ¬ ReservedClear op (ws.headD 0) (ws.getD 2 0) := by
    cases op with
    | tsetps | tmoden | tquery | sinit | ssetang | ssetpos | squery => exact not_and_or.mpr nonzero
    | tmodef | ssetpw => exact nonzero
    | tsetcmp => exact nonzero.elim
  have reserved : decode ws = .error .reserved := by
    cases ws with
    | nil => simp at words
    | cons h tl =>
      have raised := Bool.eq_true_of_not_eq_false (mt (reservedSet_eq_false_iff op h (tl.getD 1 0)).mp unclear)
      rw [List.headD_cons] at opcode
      rw [decode_of_opcode opcode length.ge, raised]
      rfl
  have count : lenOf ws = ws.length := by
    rw [length, lenOf, opcode]
  subst words
  rw [step_reserved hp reserved, count]
  rfl

/-- Settles O12: each cause is one failing check of the command's meaning, met in the order of R232. -/
theorem errorCausesAndPriority : Obligations.ErrorCausesAndPriority := by
  intro s raised
  refine ⟨fun i absent => exec_badUnit absent, fun t p ht code => exec_badPrescaler ht code,
    fun g hg invalid => ⟨fun pw => ?_, fun x => ?_, fun x => ?_, ?_⟩,
    fun g pin mn mx init hg => ⟨fun unmapped => exec_badPin mn mx init hg unmapped, fun t ch mapped clock => ?_⟩⟩
  · exact (exec_ssetpw ..).trans (withGenerator_unconstructed _ hg invalid)
  · exact (exec_ssetang ..).trans (withGenerator_unconstructed _ hg invalid)
  · exact (exec_ssetpos ..).trans (withGenerator_unconstructed _ hg invalid)
  · exact (exec_squery ..).trans (withGenerator_unconstructed _ hg invalid)
  · exact exec_badClock mn mx init hg mapped ((autoTune_eq_none_iff _).mpr clock)

/-- Settles O4: each list of words is the encoding of its command. -/
theorem specWordsDecode : Obligations.SpecWordsDecode :=
  ⟨decodeOfEncode (.tsetps 1 2) [], decodeOfEncode (.tmoden 1) [], decodeOfEncode (.tmodef 1 39999) [],
    decodeOfEncode (.tsetcmp 1 0b011 true 256) [], decodeOfEncode (.tquery 0) [],
    decodeOfEncode (.sinit 1 10 544 2400 1472) [], decodeOfEncode (.ssetpw 0 1500) [],
    decodeOfEncode (.ssetang 0 0x42340000) [], decodeOfEncode (.ssetpos 1 0x42480000) [],
    decodeOfEncode (.squery 1) []⟩

end

section
/-! The family of 40_timer.md: the critical sections every register write stands in, and IE. -/

namespace Sys2Proof.Machine

/-! ## Critical sections (R82, R136, R137) -/

/-- From `s` to `s'` IE is restored, and the trace gains whole critical sections that restore it, with pin requests
between them. -/
def GainsSections (s s' : State) : Prop :=
  s'.ie = s.ie ∧ ∃ evs, s'.trace = s.trace ++ evs ∧ sectioned s.ie false evs = true

theorem gainsSections_of_eq {s s' : State} (ie : s'.ie = s.ie) (trace : s'.trace = s.trace) : GainsSections s s' :=
  ⟨ie, [], by simp [trace], rfl⟩

theorem GainsSections.trans {a b c : State} (ab : GainsSections a b) (bc : GainsSections b c) :
    GainsSections a c := by
  obtain ⟨ieB, x, traceB, sectionsX⟩ := ab
  obtain ⟨ieC, y, traceC, sectionsY⟩ := bc
  rw [ieB] at sectionsY
  exact ⟨ieC.trans ieB, x ++ y, by rw [traceC, traceB, List.append_assoc], sectioned_append sectionsX sectionsY⟩

/-- Between its IE events a mode-set has register writes only. -/
theorem modeEvents_writes (l : Layout) (c : TimerCfg) (t : UnitNo) (icr : Option Half) (sh : Shadow) :
    ∀ e ∈ modeEvents l c t icr sh, ∃ t r w, e = .write t r w := by
  intro e he
  simp only [modeEvents, List.mem_append, List.mem_map, List.mem_singleton] at he
  rcases he with (⟨v, -, rfl⟩ | commit) | rfl
  · exact ⟨_, _, _, rfl⟩
  · exact commitEvents_writes l c t sh e commit
  · exact ⟨_, _, _, rfl⟩

theorem sectioned_modeSetTrace (l : Layout) (c : TimerCfg) (t : UnitNo) (icr : Option Half) (sh : Shadow) (ie : Bool) :
    sectioned ie false (modeSetTrace l c t icr sh ie) = true :=
  sectioned_writes ie (modeEvents_writes l c t icr sh)

theorem sectioned_compareTrace (l : Layout) (c : TimerCfg) (t : UnitNo) (mask : BitVec 3) (v : Half) (sh : Shadow)
    (ie : Bool) : sectioned ie false (compareTrace l c t mask v sh ie) = true := by
  have writes : ∀ e ∈ compareEvents c t mask v ++ commitEvents l c t sh, ∃ t r w, e = .write t r w := fun e he =>
    (List.mem_append.mp he).elim (compareEvents_writes c t mask v e) (commitEvents_writes l c t sh e)
  simpa [compareTrace] using sectioned_writes ie writes

theorem gainsSections_modeSet (t : UnitNo) (wgm : BitVec 4) (icr : Option Half) (mode : Mode) (top : Half)
    (s : State) : GainsSections s (critical (modeSetBody t wgm icr mode top) s) :=
  ⟨by rw [modeSet_eq], _, trace_modeSet .., sectioned_modeSetTrace ..⟩

theorem gainsSections_compareWrite (t : UnitNo) (mask : BitVec 3) (inv : Bool) (v : Half) (s : State) :
    GainsSections s (compareWrite t mask inv v s) :=
  ⟨by rw [compareWrite_eq], _, trace_compareWrite .., sectioned_compareTrace ..⟩

/-- Of the effects a command is made of, the mode-sets and the compare write add a section each, a pin request stands
outside the sections, and the others add nothing. -/
theorem exec_gainsSections {i : Instr} {s s' : State} (h : exec i s = .next s') : GainsSections s s' := by
  have silent {s s' : State} : s'.ie = s.ie → s'.trace = s.trace → GainsSections s s' := gainsSections_of_eq
  exact exec_induction (P := GainsSections)
    (refl := fun _ => silent rfl rfl)
    (trans := GainsSections.trans)
    (raise := fun _ _ => silent rfl rfl)
    (result := fun _ _ => silent rfl rfl)
    (stage := fun _ _ _ => silent rfl rfl)
    (normal := fun t s => gainsSections_modeSet ..)
    (fast := fun t top s => gainsSections_modeSet ..)
    (compare := gainsSections_compareWrite)
    (gen := fun _ _ _ => silent rfl rfl)
    (draw := fun _ => silent rfl rfl)
    (pin := fun p s => ⟨rfl, [.pinOut p], rfl, rfl⟩) h

theorem step_gainsSections {s s' : State} (h : step s = .next s') : GainsSections s s' :=
  step_induction (P := GainsSections) (fun _ => gainsSections_of_eq rfl rfl) GainsSections.trans
    (fun _ _ _ _ => gainsSections_of_eq rfl rfl) (fun _ _ => gainsSections_of_eq rfl rfl)
    (fun _ _ _ => exec_gainsSections) h

/-- What follows the first event of such a stretch is such a stretch again, from inside a section or from outside. -/
theorem sectioned_tail {v b : Bool} {e : Event} {rest : List Event} (h : sectioned v b (e :: rest) = true) :
    ∃ b', sectioned v b' rest = true := by
  cases b with
  | false =>
    cases e with
    | ie w => exact ⟨true, (Bool.and_eq_true_iff.mp h).2⟩
    | write t r w => cases h
    | pinOut pin => exact ⟨false, h⟩
  | true =>
    cases e with
    | ie w => exact ⟨false, (Bool.and_eq_true_iff.mp h).2⟩
    | write t r w => exact ⟨true, h⟩
    | pinOut pin => cases h

/-- Critical sections that restore `v` write IE(1) only where `v` is 1: IE(1) opens no section. -/
theorem eq_true_of_sectioned {v b : Bool} {evs : List Event} (sections : sectioned v b evs = true)
    (enabled : Event.ie true ∈ evs) : v = true := by
  induction evs generalizing b with
  | nil => cases enabled
  | cons e rest ih =>
    rcases List.mem_cons.mp enabled with rfl | later
    · cases b with
      | false => cases sections
      | true => exact (of_decide_eq_true (Bool.and_eq_true_iff.mp sections).1).symm
    · obtain ⟨b', tail⟩ := sectioned_tail sections
      exact ih tail later

end Sys2Proof.Machine

open Sys2Proof.Machine

/-- Settles O28: each mode-set and each compare write is one section that restores IE, and nothing else writes a
register. -/
theorem writesOnlyInCriticalSections : Obligations.WritesOnlyInCriticalSections := by
  intro s s' h
  obtain ⟨-, sections⟩ := step_gainsSections h
  exact sections

/-- Settles O27: every section ends in IE as it was found, and begins with IE(0). -/
theorem interruptEnableRestored : Obligations.InterruptEnableRestored := by
  intro s s' h
  obtain ⟨ie, evs, trace, sections⟩ := step_gainsSections h
  exact ⟨ie, evs, trace, eq_true_of_sectioned sections⟩

end

section
/-! The family of 40_timer.md, continued: each timer command as one update of the state. -/

namespace Sys2Proof.Machine

/-! ## Channel C (R9, R155) -/

theorem chanPresent_C_iff (c : TimerCfg) : chanPresent c .C = true ↔ c.is16 = true ∧ c.nch = .three := by
  simp [chanPresent]

theorem chanPresent_C_eq_false_iff (c : TimerCfg) :
    chanPresent c .C = false ↔ ¬ (c.is16 = true ∧ c.nch = .three) := by
  rw [← chanPresent_C_iff, Bool.not_eq_true]

theorem selected_A (c : TimerCfg) (mask : BitVec 3) : selected c mask .A = mask.getLsbD 0 := Bool.and_true _

theorem selected_B (c : TimerCfg) (mask : BitVec 3) : selected c mask .B = mask.getLsbD 1 := Bool.and_true _

theorem selected_C (c : TimerCfg) (mask : BitVec 3) :
    selected c mask .C = (mask.getLsbD 2 && c.is16 && decide (c.nch = .three)) := (Bool.and_assoc ..).symm

/-! ## Mode-sets (R143–R150) -/

/-- The shadow of a mode-set, with the condition for `COM[C]` in the spec's terms (R45, R143). -/
theorem modeShadow_eq (l : Layout) (c : TimerCfg) (wgm : BitVec 4) (p : Prescaler) :
    modeShadow l c wgm p =
      { wgm := wgm, cs := csCode c p, comA := l.comOff, comB := l.comOff
        comC := if c.is16 = true ∧ c.nch = .three then l.comOff else 0 } := by
  simp only [modeShadow, chanPresent_C_iff]

/-- A mode-set writes ICR first, where it is given a TOP (R149). -/
theorem modeEvents_eq (l : Layout) (c : TimerCfg) (t : UnitNo) (icr : Option Half) (sh : Shadow) :
    modeEvents l c t icr sh =
      (icr.toList.map fun v => Event.write t .icr (.half v)) ++ commitEvents l c t sh ++
        [.write t .cnt (if c.is16 then .half 0 else .byte 0)] := rfl

/-- TMODEF writes ICR on a 16-bit timer only (R149, R150). -/
theorem icrEvents_eq (c : TimerCfg) (t : UnitNo) (top : Half) :
    ((if c.is16 then some top else none).toList.map fun v => Event.write t .icr (.half v)) =
      if c.is16 then [.write t .icr (.half top)] else [] := by
  cases c.is16 <;> rfl

/-! ## Compare writes (R155–R162) -/

theorem timerWide_eq (c : TimerCfg) (v : Half) :
    timerWide c v = if c.is16 then .half v else .byte (v.extractLsb' 0 8) := by
  rw [timerWide, BitVec.setWidth_eq_extractLsb' (by decide)]

theorem exec_tsetcmp_next {t : UnitNo} {s : State} (ht : t.val < s.platform.numTimers) (mask : BitVec 3) (inv : Bool)
    (v : Half) : exec (.tsetcmp t mask inv v) s = .next (compareWrite t mask inv v s) :=
  (exec_tsetcmp ..).trans (withTimer_next _ ht)

/-- A compare write depends on its mask only through the channels it selects. -/
theorem compareWrite_congr_mask {t : UnitNo} {mask mask' : BitVec 3} {s : State}
    (same : ∀ ch, selected (s.cfg t) mask ch = selected (s.cfg t) mask' ch) (inv : Bool) (v : Half) :
    compareWrite t mask inv v s = compareWrite t mask' inv v s := by
  simp only [compareWrite_eq, compareShadow, compareEvents, same]

/-- A compare write that selects no channel commits the shadow it finds (R161). -/
theorem compareWrite_of_none_selected {t : UnitNo} {mask : BitVec 3} {s : State}
    (unselected : ∀ ch, selected (s.cfg t) mask ch = false) (inv : Bool) (v : Half) :
    compareWrite t mask inv v s = { s with
      trace := s.trace ++ [.ie false] ++ commitEvents s.platform.layout (s.cfg t) t (s.timer t).shadow ++
        [.ie s.ie] } := by
  have timers : s.timers.set t.val (s.timer t) = s.timers := congrArg State.timers (setTimer_timer s t)
  simp only [compareWrite_eq, compareShadow, compareEvents, unselected, Bool.false_eq_true, if_false, List.append_nil,
    timers]

/-- Bit C of the mask selects nothing where the timer lacks the channel (R160). -/
theorem selected_clear_C {c : TimerCfg} (absent : chanPresent c .C = false) (mask : BitVec 3) (ch : Channel) :
    selected c mask ch = selected c (mask &&& 0b011) ch := by
  cases ch with
  | A => simp [selected_A]
  | B => simp [selected_B]
  | C => rw [selected_C_of_absent absent, selected_C_of_absent absent]

/-- A mask that is empty, or names an absent channel C alone, selects no channel (R161). -/
theorem selected_eq_false {c : TimerCfg} {mask : BitVec 3}
    (empty : mask = 0 ∨ (mask = 0b100 ∧ chanPresent c .C = false)) (ch : Channel) : selected c mask ch = false := by
  rcases empty with rfl | ⟨rfl, absent⟩
  · simp [selected, maskHas]
  · cases ch with
    | A => rw [selected_A]; rfl
    | B => rw [selected_B]; rfl
    | C => exact selected_C_of_absent absent _

/-- Every register write of a compare write is one of its compare registers or of its commit. -/
theorem write_mem_compareTrace_iff {l : Layout} {c : TimerCfg} {t u : UnitNo} {mask : BitVec 3} {value : Half}
    {sh : Shadow} {ie : Bool} {r : RegName} {v : RegValue} :
    Event.write u r v ∈ compareTrace l c t mask value sh ie ↔
      Event.write u r v ∈ compareEvents c t mask value ∨ Event.write u r v ∈ commitEvents l c t sh := by
  simp [compareTrace]

theorem reg_of_mem_compareTrace {l : Layout} {c : TimerCfg} {t u : UnitNo} {mask : BitVec 3} {value : Half}
    {sh : Shadow} {ie : Bool} {r : RegName} {v : RegValue}
    (h : Event.write u r v ∈ compareTrace l c t mask value sh ie) :
    r ∈ [RegName.ocrA, .ocrB, .ocrC, .ctrlA, .ctrlB, .ctrlC] := by
  rcases write_mem_compareTrace_iff.mp h with compare | commit
  · obtain ⟨-, rfl | rfl | rfl⟩ := write_mem_compareEvents compare <;> decide
  · obtain ⟨-, rfl | rfl | rfl⟩ := write_mem_commitEvents commit <;> decide

/-- OCR_C is written only where channel C is selected (R160). -/
theorem ocrC_not_mem_compareTrace {c : TimerCfg} {mask : BitVec 3} (unselected : selected c mask .C = false)
    (l : Layout) (t : UnitNo) (value : Half) (sh : Shadow) (ie : Bool) (v : RegValue) :
    Event.write t .ocrC v ∉ compareTrace l c t mask value sh ie := by
  intro h
  rcases write_mem_compareTrace_iff.mp h with compare | commit
  · simp [compareEvents, unselected] at compare
  · simpa using (write_mem_commitEvents commit).2

theorem ctrlB_mem_compareTrace (l : Layout) (c : TimerCfg) (t : UnitNo) (mask : BitVec 3) (value : Half) (sh : Shadow)
    (ie : Bool) : Event.write t .ctrlB (.byte (composeB l c sh)) ∈ compareTrace l c t mask value sh ie :=
  write_mem_compareTrace_iff.mpr (.inr (by simp [commitEvents]))

/-- Staging a prescaler before a compare write is staging it after (R162). -/
theorem compareWrite_stagePrescaler (t : UnitNo) (mask : BitVec 3) (inv : Bool) (v : Half) (p : Prescaler)
    (s : State) :
    compareWrite t mask inv v (stagePrescaler t p s) = stagePrescaler t p (compareWrite t mask inv v s) := by
  simp [compareWrite_eq, stagePrescaler, setTimer, State.timer, State.cfg]

/-- The record a compare write leaves in its timer (R156). -/
theorem timer_compareWrite_self (t : UnitNo) (mask : BitVec 3) (inv : Bool) (v : Half) (s : State) :
    (compareWrite t mask inv v s).timer t =
      { s.timer t with shadow := compareShadow s.platform.layout (s.cfg t) mask inv (s.timer t).shadow } :=
  timer_of_set_self (timers_compareWrite ..)

/-! ## TQUERY (R170) -/

/-- The fields of the word TQUERY reports, and the bits between them. -/
theorem configWord_fields (r : TimerRec) :
    (configWord r).extractLsb' 24 2 = modeCode r.mode ∧ (configWord r).extractLsb' 20 3 = psCode r.psStaged ∧
      (configWord r).extractLsb' 16 3 = psCode r.psApplied ∧ (configWord r).extractLsb' 0 16 = r.top ∧
      (configWord r).extractLsb' 26 6 = 0 ∧ (configWord r).getLsbD 23 = false ∧
      (configWord r).getLsbD 19 = false := by
  unfold configWord
  refine ⟨?_, ?_, ?_, BitVec.extractLsb'_append_eq_right, ?_, ?_, ?_⟩
  · iterate 5 rw [BitVec.extractLsb'_append_eq_of_le (by decide)]
    exact BitVec.extractLsb'_append_eq_right
  · iterate 3 rw [BitVec.extractLsb'_append_eq_of_le (by decide)]
    exact BitVec.extractLsb'_append_eq_right
  · rw [BitVec.extractLsb'_append_eq_of_le (by decide)]
    exact BitVec.extractLsb'_append_eq_right
  · iterate 5 rw [BitVec.extractLsb'_append_eq_of_le (by decide)]
    exact BitVec.extractLsb'_append_eq_left
  · simp only [BitVec.getLsbD_append]
    simp
  · simp only [BitVec.getLsbD_append]
    simp

/-! ## The composed control bytes (R132, R133, R135) -/

/-- A composed control byte by its bits. -/
theorem ctlByte_eq_iff (c : TimerCfg) (sh : Shadow) (b : CtlByte) (v : Byte) :
    ctlByte c sh b = v ↔
      ctlBit c sh b.b7 = v.getLsbD 7 ∧ ctlBit c sh b.b6 = v.getLsbD 6 ∧ ctlBit c sh b.b5 = v.getLsbD 5 ∧
      ctlBit c sh b.b4 = v.getLsbD 4 ∧ ctlBit c sh b.b3 = v.getLsbD 3 ∧ ctlBit c sh b.b2 = v.getLsbD 2 ∧
      ctlBit c sh b.b1 = v.getLsbD 1 ∧ ctlBit c sh b.b0 = v.getLsbD 0 := by
  constructor
  · rintro rfl
    simp only [ctlByte, BitVec.getLsbD_append]
    simp
  · intro h
    apply BitVec.eq_of_getLsbD_eq
    intro i hi
    simp only [ctlByte, BitVec.getLsbD_append]
    interval_cases i <;> simp [h]

theorem composeA_layoutDefault (c : TimerCfg) (sh : Shadow) :
    composeA layoutDefault c sh =
      sh.comA ++ sh.comB ++ (if c.is16 && decide (c.nch = .three) then sh.comC else (0 : BitVec 2)) ++
        sh.wgm.extractLsb' 0 2 := by
  rw [composeA, ctlByte_eq_iff]
  simp only [BitVec.getLsbD_append]
  obtain ⟨is16, nch, fclk, csTable, regAddr⟩ := c
  cases is16 with
  | false => simp [ctlBit, shadowCom, chanPresent, layoutDefault, ctrlA8Default]
  | true => cases nch <;> simp [ctlBit, shadowCom, chanPresent, layoutDefault, ctrlA16Default]

theorem composeB_layoutDefault (c : TimerCfg) (sh : Shadow) :
    composeB layoutDefault c sh =
      if c.is16 then (0 : BitVec 3) ++ sh.wgm.extractLsb' 2 2 ++ sh.cs
        else (0 : BitVec 4) ++ sh.wgm.extractLsb' 2 1 ++ sh.cs := by
  rw [composeB, ctlByte_eq_iff]
  cases wide : c.is16
  · simp only [Bool.false_eq_true, if_false, BitVec.getLsbD_append]
    simp [ctlBit, layoutDefault, ctrlB8Default]
  · simp only [if_true, BitVec.getLsbD_append]
    simp [ctlBit, layoutDefault, ctrlB16Default]

theorem composeC_layoutDefault (c : TimerCfg) (sh : Shadow) : composeC layoutDefault c sh = 0x00 := by
  rw [composeC, ctlByte_eq_iff]
  simp [ctlBit, layoutDefault, ctrlC16Default]

end Sys2Proof.Machine

open Sys2Proof Sys2Proof.Machine

/-- Settles O16: the code is the prescaler's, so TSETPS stages it. -/
theorem tsetpsStagesPrescaler : Obligations.TsetpsStagesPrescaler := by
  intro s t ps ht code
  have named : psOfCode code = some ps := psOfCode_psCode ps
  rw [exec_tsetps, withTimer_next _ ht, named]
  rfl

/-- Settles O17: TMODEN is a mode-set without ICR. -/
theorem tmodenSetsNormalMode : Obligations.TmodenSetsNormalMode := by
  intro s t ht l c p cs sh
  have shadow : modeShadow l c 0 p = sh := modeShadow_eq l c 0 p
  rw [exec_tmoden, withTimer_next _ ht, modeNormal_eq, modeSet_eq, shadow, modeEvents_eq]
  simp [l, c, p]

/-- Settles O18: TMODEF is a mode-set that writes ICR on a 16-bit timer. -/
theorem tmodefSetsFastPwm : Obligations.TmodefSetsFastPwm := by
  intro s t top ht l c p cs sh
  have shadow : modeShadow l c (wgmFast l c) p = sh := modeShadow_eq l c (wgmFast l c) p
  rw [exec_tmodef, withTimer_next _ ht, modeFast_eq, modeSet_eq, shadow, modeEvents_eq, icrEvents_eq]
  simp [l, c, p]

/-- Settles O19: the channels a compare write selects are the requested ones the timer has. -/
theorem tsetcmpWritesCompare : Obligations.TsetcmpWritesCompare := by
  intro s t mask inv value ht l c sh com hasC v sh'
  rw [exec_tsetcmp_next ht, compareWrite_eq]
  simp only [compareShadow, compareEvents, selected_A, selected_B, selected_C, timerWide_eq, List.append_assoc,
    l, c, sh, com, hasC, v, sh']

/-- Settles O20: TQUERY reports the word whose fields are the configuration. -/
theorem tqueryReportsConfiguration : Obligations.TqueryReportsConfiguration := by
  intro s t ht r code
  refine ⟨configWord r, ?_, configWord_fields r⟩
  rw [exec_tquery, withTimer_next _ ht]
  rfl

/-- Settles O21: bit by bit, by the rows of the placement tables. -/
theorem defaultLayoutComposition : Obligations.DefaultLayoutComposition := fun c sh =>
  ⟨composeA_layoutDefault c sh, composeB_layoutDefault c sh, composeC_layoutDefault c sh⟩

/-- Settles O22: the two masks select the same channels. -/
theorem absentChannelIgnored : Obligations.AbsentChannelIgnored := by
  intro s t mask inv value ht lacks
  have absent := (chanPresent_C_eq_false_iff _).mpr lacks
  have unselected := selected_C_of_absent absent mask
  refine ⟨compareWrite t mask inv value s, _, ?_, ?_, ?_, ?_, trace_compareWrite .., fun v =>
    ocrC_not_mem_compareTrace unselected _ _ _ _ _ v⟩
  · exact exec_tsetcmp_next ht ..
  · rw [exec_tsetcmp_next ht, compareWrite_congr_mask (selected_clear_C absent mask)]
  · rw [compareWrite_eq]
  · simp [timer_compareWrite_self, compareShadow, unselected]

/-- Settles O23: such a mask selects no channel. -/
theorem emptyMaskStillCommits : Obligations.EmptyMaskStillCommits := by
  intro s t mask inv value ht empty
  rw [← chanPresent_C_eq_false_iff] at empty
  rw [exec_tsetcmp_next ht, compareWrite_of_none_selected (selected_eq_false empty)]

/-- Settles O24: a compare write commutes with staging, and its events and its record show no trace of the staged
prescaler. -/
theorem stagedPrescalerInertForCompare : Obligations.StagedPrescalerInertForCompare := by
  intro s t mask inv value ps ht staged
  have record := timer_compareWrite_self t mask inv value s
  refine ⟨compareWrite t mask inv value s, _, ?_, ?_, trace_compareWrite .., fun v => ⟨?_, ?_⟩, ?_, ?_⟩
  · exact exec_tsetcmp_next ht ..
  · change exec _ (stagePrescaler t ps s) = .next (stagePrescaler t ps _)
    rw [exec_tsetcmp_next (s := stagePrescaler t ps s) ht, compareWrite_stagePrescaler]
  · exact fun h => by simpa using reg_of_mem_compareTrace h
  · exact fun h => by simpa using reg_of_mem_compareTrace h
  · rw [record]
    exact ctrlB_mem_compareTrace ..
  · rw [record]
    exact ⟨rfl, rfl, rfl, rfl⟩

end

section
/-! The family of 40_timer.md, continued: what the timer commands leave alone. -/

namespace Sys2Proof.Machine

/-- `i` is a timer command, on timer `t` (R114). -/
def TimerCommand (i : Instr) (t : UnitNo) : Prop :=
  (∃ p, i = .tsetps t p) ∨ i = .tmoden t ∨ (∃ top, i = .tmodef t top) ∨ (∃ mask inv v, i = .tsetcmp t mask inv v) ∨
    i = .tquery t

/-! ## Checks (R106, R107) -/

/-- The codes below 5 name a prescaler (R107, R119). -/
theorem exists_psOfCode {p : BitVec 3} (h : p.toNat < 5) : ∃ ps, psOfCode p = some ps := by
  rw [← Option.isSome_iff_exists]
  revert p
  decide

theorem effect_of_withTimer {t : UnitNo} {s s' : State} {k : State → State}
    (unit : decide (t.val < s.platform.numTimers) = true) (h : withTimer t s k = .next s') : s' = k s := by
  rw [withTimer_next k (of_decide_eq_true unit)] at h
  exact (Host.Outcome.next.inj h).symm

/-- The checks of `fits` are all the checks a timer command makes. -/
theorem completes_of_fits {i : Instr} {t : UnitNo} {s s' : State} (timer : TimerCommand i t)
    (fits : i.fits s.platform = true) (h : exec i s = .next s') : Completes i s s' := by
  have unit := unitFits_of_fits fits
  rcases timer with ⟨p, rfl⟩ | rfl | ⟨top, rfl⟩ | ⟨mask, inv, v, rfl⟩ | rfl
  · simp only [Instr.fits, Instr.wellFormed, Bool.and_eq_true, decide_eq_true_eq] at fits
    obtain ⟨⟨code, -⟩, -⟩ := fits
    obtain ⟨ps, named⟩ := exists_psOfCode code
    rw [exec_tsetps, named] at h
    exact ⟨ps, named, effect_of_withTimer unit h⟩
  · rw [exec_tmoden] at h
    exact effect_of_withTimer unit h
  · rw [exec_tmodef] at h
    exact effect_of_withTimer unit h
  · rw [exec_tsetcmp] at h
    exact effect_of_withTimer unit h
  · rw [exec_tquery] at h
    exact (effect_of_withTimer unit h :)

/-! ## The frame (R141, R145, R149, R155, R170) -/

/-- From `s` to `s'` nothing changes but the record of timer `t`, the trace, STATUS and RESULT. -/
def ChangesTimerOnly (t : UnitNo) (s s' : State) : Prop :=
  ∃ r trace status result,
    s' = { s with timers := s.timers.set t.val r, trace := trace, status := status, result := result }

theorem ChangesTimerOnly.eq {t : UnitNo} {s s' : State} (h : ChangesTimerOnly t s s') :
    s' = { s with
      timers := s.timers.set t.val (s'.timer t), trace := s'.trace, status := s'.status, result := s'.result } := by
  obtain ⟨r, trace, status, result, rfl⟩ := h
  simp [State.timer]

theorem raiseError_changesTimerOnly (t : UnitNo) (e : ErrCode) (s : State) :
    ChangesTimerOnly t s (raiseError e s) :=
  ⟨_, _, _, _, congrArg (raiseError e) (setTimer_timer s t).symm⟩

theorem setResult_changesTimerOnly (t : UnitNo) (v : Word) (s : State) : ChangesTimerOnly t s (setResult v s) :=
  ⟨_, _, _, _, congrArg (setResult v) (setTimer_timer s t).symm⟩

theorem exec_changesTimerOnly {i : Instr} {t : UnitNo} {s s' : State} (timer : TimerCommand i t)
    (h : exec i s = .next s') : ChangesTimerOnly t s s' := by
  rcases exec_cases h with ⟨e, rfl⟩ | ⟨-, completes⟩
  · exact raiseError_changesTimerOnly t e s
  rcases timer with ⟨p, rfl⟩ | rfl | ⟨top, rfl⟩ | ⟨mask, inv, v, rfl⟩ | rfl
  · obtain ⟨ps, -, rfl⟩ := completes
    exact ⟨_, _, _, _, rfl⟩
  · cases completes
    exact ⟨_, _, _, _, modeSet_eq ..⟩
  · cases completes
    exact ⟨_, _, _, _, modeSet_eq ..⟩
  · cases completes
    exact ⟨_, _, _, _, compareWrite_eq ..⟩
  · cases completes
    exact setResult_changesTimerOnly t _ s

/-- Of the timer commands only TQUERY writes RESULT (R40). -/
theorem timerCommand_result {i : Instr} {t : UnitNo} {s s' : State} (timer : TimerCommand i t) (h : exec i s = .next s')
    (other : i ≠ .tquery t) : s'.result = s.result := by
  by_contra changed
  obtain ⟨writers, -⟩ := resultRegisterWriters
  obtain ⟨-, -, writer⟩ := writers i s s' h changed
  rcases timer with ⟨p, rfl⟩ | rfl | ⟨top, rfl⟩ | ⟨mask, inv, v, rfl⟩ | rfl
  case inr.inr.inr.inr => exact other rfl
  all_goals exact writer

end Sys2Proof.Machine

open Sys2Proof Sys2Proof.Machine

/-- Settles O26: a command that fits completes, and one that does not raises an error; either way the rest of the
state stays. -/
theorem timerCommandFrame : Obligations.TimerCommandFrame := by
  intro i t s s' timer h
  obtain ⟨-, evs, trace, -⟩ := exec_gainsSections h
  refine ⟨(exec_changesTimerOnly timer h).eq, ⟨evs, trace⟩,
    fun fits => completes_status (completes_of_fits timer fits h), fun unfit => ?_, timerCommand_result timer h⟩
  rcases exec_cases h with ⟨e, rfl⟩ | ⟨fits, -⟩
  · rfl
  · simp [unfit] at fits

end

section
/-! The family of 41_pulse.md: the values an SINIT derives from the bounds (R182), the auto-tune's selection (R186),
and the range of the angle's intermediate width (R209). -/

namespace Sys2Proof.Machine

/-! ## Rounding within bounds (R21) -/

theorem rnd_natCast (a b : Nat) : rnd a b = ((2 * a + b) / (2 * b) : Nat) := by
  rw [rnd_of_nonneg (Int.natCast_nonneg a)]
  push_cast
  rfl

theorem rnd_zero (b : Nat) : rnd 0 b = 0 := by
  rw [← Nat.cast_zero, rnd_natCast]
  norm_cast
  rcases Nat.eq_zero_or_pos b with rfl | hb
  · rfl
  · exact Nat.div_eq_of_lt (by omega)

/-- Rounding is symmetric about 0: halves go away from it. -/
theorem rnd_neg (a : Int) (b : Nat) : rnd (-a) b = -rnd a b := by
  rcases lt_trichotomy a 0 with ha | rfl | ha
  · rw [rnd_of_neg ha, rnd_of_nonneg (by omega), neg_neg]
  · rw [neg_zero, rnd_zero, neg_zero]
  · rw [rnd_of_neg (by omega), rnd_of_nonneg ha.le, neg_neg]

/-- A quotient that is at most an integer rounds to at most that integer. -/
theorem rnd_le {a k : Int} {b : Nat} (hb : 0 < b) (h : a ≤ k * b) : rnd a b ≤ k := by
  by_cases ha : 0 ≤ a
  · rw [rnd_of_nonneg ha, ← Int.lt_add_one_iff]
    exact Int.ediv_lt_of_lt_mul (by omega) (by linarith)
  · rw [rnd_of_neg (not_le.mp ha)]
    exact neg_le.mp ((Int.le_ediv_iff_mul_le (by omega)).mpr (by linarith))

theorem le_rnd {a k : Int} {b : Nat} (hb : 0 < b) (h : k * b ≤ a) : k ≤ rnd a b := by
  have negated : rnd (-a) b ≤ -k := rnd_le hb (by linarith)
  rw [rnd_neg] at negated
  exact neg_le_neg_iff.mp negated

theorem rnd_mul_self (k : Int) {b : Nat} (hb : 0 < b) : rnd (k * b) b = k :=
  le_antisymm (rnd_le hb le_rfl) (le_rnd hb le_rfl)

/-! ## Derived values (R182) -/

theorem midUs_toNat (mn mx : Half) : (midUs mn mx).toNat = (mn.toNat + mx.toNat + 1) / 2 := by
  rw [midUs, ← Nat.cast_add, rnd_natCast, BitVec.ofInt_natCast, BitVec.toNat_ofNat]
  omega

/-- The span of the bounds divided by the units of an operand's range, to nearest. -/
theorem rnd_span {mn mx : Half} (h : mn.toNat ≤ mx.toNat) (units : Nat) :
    rnd ((mx.toNat : Int) - mn.toNat) units = ((2 * (mx.toNat - mn.toNat) + units) / (2 * units) : Nat) := by
  rw [← Nat.cast_sub h, rnd_natCast]

theorem microsPerDegree_toNat {mn mx : Half} (h : mn.toNat ≤ mx.toNat) :
    (microsPerDegree mn mx).toNat = (mx.toNat - mn.toNat + 90) / 180 := by
  rw [microsPerDegree, rnd_span h, BitVec.ofInt_natCast, BitVec.toNat_ofNat, Config.angleSpan]
  omega

theorem microsPerPercent_toNat {mn mx : Half} (h : mn.toNat ≤ mx.toNat) :
    (microsPerPercent mn mx).toNat = (mx.toNat - mn.toNat + 50) / 100 := by
  rw [microsPerPercent, rnd_span h, BitVec.ofInt_natCast, BitVec.toNat_ofNat, Config.percentSpan]
  omega

theorem microsPerDegree_le {mn mx : Half} (h : mn.toNat ≤ mx.toNat) : (microsPerDegree mn mx).toNat ≤ 364 := by
  rw [microsPerDegree_toNat h]
  omega

/-! ## The auto-tune (R186, R187) -/

/-- What the auto-tune answers is what it selected. -/
theorem autoTuneSelect_of_autoTune {f : Nat} {pn : Prescaler × Nat} (h : autoTune f = some pn) :
    autoTuneSelect f = pn := by
  unfold autoTune at h
  dsimp only at h
  split at h
  · cases h
  · exact Option.some.inj h

end Sys2Proof.Machine

open Sys2Proof Sys2Proof.Machine

/-- Settles O33: rounding to nearest is adding half the divisor before the division. -/
theorem derivedValues : Obligations.DerivedValues := by
  intro mn mx lt
  have mid := midUs_toNat mn mx
  have mpd := microsPerDegree_toNat lt.le
  have mpp := microsPerPercent_toNat lt.le
  refine ⟨mid, mpd, mpp, by omega, microsPerDegree_le lt.le, by omega, fun small => BitVec.eq_of_toNat_eq ?_,
    fun small => BitVec.eq_of_toNat_eq ?_⟩
  · rw [mpd]
    exact Nat.div_eq_of_lt (by omega)
  · rw [mpp]
    exact Nat.div_eq_of_lt (by omega)

/-- Settles O34: the legal counts are the selected ones within the counter's range. -/
theorem autoTuneSelection : Obligations.AutoTuneSelection := by
  intro f
  refine ⟨autoTune_eq_none_iff f, fun p n tuned => ?_⟩
  obtain ⟨n_pos, n_le⟩ := autoTune_range tuned
  have selected := autoTuneSelect_of_autoTune tuned
  rw [autoTuneSelect_eq] at selected
  refine ⟨n_pos, n_le, fun high => ?_, fun low => ?_, fun inRange fits => ?_⟩
  · rw [if_pos high] at selected
    cases selected
    exact ⟨rfl, rfl⟩
  · rw [if_neg (by omega), if_pos low] at selected
    cases selected
    exact ⟨rfl, rfl⟩
  · rw [if_neg (by omega), if_neg (by omega)] at selected
    cases selected
    exact ⟨rfl, rfl⟩

/-- Settles O35: the offset from MID is at most 90 · 364 on either side. -/
theorem angleIntermediateRange : Obligations.AngleIntermediateRange := by
  intro mn mx q lt den_pos low high
  have mid := (midUs mn mx).isLt
  have mpd : ((microsPerDegree mn mx).toNat : Int) ≤ 364 := Int.ofNat_le.mpr (microsPerDegree_le lt.le)
  have upper : rnd (q.num * (microsPerDegree mn mx).toNat) q.den ≤ 90 * 364 := rnd_le den_pos (by nlinarith)
  have lower : -(90 * 364) ≤ rnd (q.num * (microsPerDegree mn mx).toNat) q.den := le_rnd den_pos (by nlinarith)
  constructor <;> omega

end

section
/-! The family of 41_pulse.md, continued: the width a generator command stores and the compare write it ends in. -/

namespace Sys2Proof.Machine

/-! ## The width stored (R197, R201) -/

/-- The width slot `r` stores when `x` is asked of it (R197). -/
def boundedWidth (r : GenRec) (x : Int) : Half := BitVec.ofInt 16 (clamp x r.minUs.toNat r.maxUs.toNat)

theorem withWidth_eq (r : GenRec) (x : Int) : withWidth r x = { r with pw := boundedWidth r x } := rfl

@[simp] theorem withWidth_timer (r : GenRec) (x : Int) : (withWidth r x).timer = r.timer := rfl

theorem boundedWidth_toNat (r : GenRec) (x : Int) :
    ((boundedWidth r x).toNat : Int) = clamp x r.minUs.toNat r.maxUs.toNat := clamp_toNat x r.minUs r.maxUs

/-- The clamp of an operand, by its three cases. -/
theorem boundedWidth_natCast (r : GenRec) (x : Half) :
    boundedWidth r x.toNat =
      if x.toNat < r.minUs.toNat then r.minUs else if r.maxUs.toNat < x.toNat then r.maxUs else x := by
  unfold boundedWidth clamp
  simp only [Nat.cast_lt]
  split_ifs <;> simp

/-- A width within the bounds is stored as it is. -/
theorem boundedWidth_of_mem {r : GenRec} {x : Half} (lo : r.minUs.toNat ≤ x.toNat) (hi : x.toNat ≤ r.maxUs.toNat) :
    boundedWidth r x.toNat = x := by
  rw [boundedWidth_natCast, if_neg (by omega), if_neg (by omega)]

theorem boundedWidth_toNat_of_le {r : GenRec} (le : r.minUs.toNat ≤ r.maxUs.toNat) (x : Int) :
    ((boundedWidth r x).toNat : Int) = max (r.minUs.toNat : Int) (min x r.maxUs.toNat) := by
  rw [boundedWidth_toNat, clamp_eq_max_min x (Int.ofNat_le.mpr le)]

theorem boundedWidth_bounds {r : GenRec} (le : r.minUs.toNat ≤ r.maxUs.toNat) (x : Int) :
    r.minUs.toNat ≤ (boundedWidth r x).toNat ∧ (boundedWidth r x).toNat ≤ r.maxUs.toNat := by
  have width := boundedWidth_toNat r x
  have bounds := clamp_bounds x (Int.ofNat_le.mpr le)
  omega

/-! ## The pulse write (R198–R200) -/

/-- The tick count of the width slot `r` stores when `x` is asked of it (R198). -/
def pulseTicks (r : GenRec) (x : Int) : Nat := ticksOf r.n.toNat (boundedWidth r x).toNat

/-- The compare value a pulse write of `x` writes for slot `g` (R199). -/
def pulseValue (g : UnitNo) (x : Int) (s : State) : Half := (compareValue (pulseTicks (s.gen g) x) s).1

/-- The shadow a pulse write of slot `r` leaves in its timer (R156, R200). -/
def pulseShadow (s : State) (r : GenRec) : Shadow :=
  compareShadow s.platform.layout (s.cfg r.timer) (maskOf r.ch) false (s.timer r.timer).shadow

/-- A pulse write as a compare write from the state with the width stored and the draw counted (R198, R200). -/
theorem pulseWrite_eq_compareWrite (g : UnitNo) (x : Int) (s : State) :
    pulseWrite g x s =
      compareWrite (s.gen g).timer (maskOf (s.gen g).ch) false (pulseValue g x s)
        { s with
          gens := s.gens.set g.val (withWidth (s.gen g) x)
          draws := if 0xFFFF < pulseTicks (s.gen g) x ∧ s.platform.overrange = .any then s.draws + 1
            else s.draws } := pulseWrite_eq g x s

theorem pulseTicks_eq (r : GenRec) (x : Int) :
    pulseTicks r x = (2 * r.n.toNat * (boundedWidth r x).toNat + 20000) / 40000 := ticksOf_eq _ _

/-- A tick count in range is written as it is, and an over-range one as the policy says (R199). -/
theorem pulseValue_eq (g : UnitNo) (x : Int) (s : State) :
    pulseValue g x s =
      if pulseTicks (s.gen g) x ≤ 0xFFFF then BitVec.ofNat 16 (pulseTicks (s.gen g) x)
        else if s.platform.overrange = .any then Config.freeHalf s.draws else 0xFFFF :=
  congrArg Prod.fst (compareValue_eq _ s)

/-- The events a pulse write of `x` on slot `g` adds to the trace (R198). -/
def pulseTrace (g : UnitNo) (x : Int) (s : State) : List Event :=
  compareTrace s.platform.layout (s.cfg (s.gen g).timer) (s.gen g).timer (maskOf (s.gen g).ch) (pulseValue g x s)
    (pulseShadow s (s.gen g)) s.ie

theorem trace_pulseWrite (g : UnitNo) (x : Int) (s : State) :
    (pulseWrite g x s).trace = s.trace ++ pulseTrace g x s := by
  rw [pulseWrite_eq_compareWrite]
  exact trace_compareWrite ..

theorem timers_pulseWrite (g : UnitNo) (x : Int) (s : State) :
    (pulseWrite g x s).timers =
      s.timers.set (s.gen g).timer.val
        { s.timer (s.gen g).timer with shadow := pulseShadow s (s.gen g) } := by
  rw [pulseWrite_eq_compareWrite]
  exact timers_compareWrite ..

theorem gens_pulseWrite (g : UnitNo) (x : Int) (s : State) :
    (pulseWrite g x s).gens = s.gens.set g.val (withWidth (s.gen g) x) := by
  rw [pulseWrite_eq_compareWrite, compareWrite_eq]

theorem draws_pulseWrite (g : UnitNo) (x : Int) (s : State) :
    (pulseWrite g x s).draws =
      if 0xFFFF < pulseTicks (s.gen g) x ∧ s.platform.overrange = .any then s.draws + 1 else s.draws := by
  rw [pulseWrite_eq_compareWrite, compareWrite_eq]

theorem ie_pulseWrite (g : UnitNo) (x : Int) (s : State) : (pulseWrite g x s).ie = s.ie := by
  rw [pulseWrite_eq_compareWrite, compareWrite_eq]

/-! ## The pulse commands (R196, R201, R204, R212) -/

theorem exec_ssetpw_next {g : UnitNo} {s : State} (hg : g.val < s.platform.numGenerators)
    (valid : (s.gen g).valid = true) (x : Half) :
    exec (.ssetpw g x) s = .next (pulseCommand g ((x.toNat : Int), s)) :=
  (exec_ssetpw ..).trans (withGenerator_next _ hg valid)

theorem exec_ssetang_next {g : UnitNo} {s : State} (hg : g.val < s.platform.numGenerators)
    (valid : (s.gen g).valid = true) (x : Word) :
    exec (.ssetang g x) s = .next (pulseCommand g (requestWidth g angleTarget x s)) :=
  (exec_ssetang ..).trans (withGenerator_next _ hg valid)

theorem exec_ssetpos_next {g : UnitNo} {s : State} (hg : g.val < s.platform.numGenerators)
    (valid : (s.gen g).valid = true) (x : Word) :
    exec (.ssetpos g x) s = .next (pulseCommand g (requestWidth g percentTarget x s)) :=
  (exec_ssetpos ..).trans (withGenerator_next _ hg valid)

theorem gen_pulseWrite_eq_withWidth (g : UnitNo) (x : Int) (s : State) :
    (pulseWrite g x s).gen g = withWidth (s.gen g) x := gen_pulseWrite g x s

theorem gen_pulseCommand_self (g : UnitNo) (x : Int) (s : State) :
    (pulseCommand g (x, s)).gen g = withWidth (s.gen g) x :=
  (gen_congr (gens_pulseCommand g (x, s)) g).trans (gen_pulseWrite_eq_withWidth g x s)

/-- A pulse command of a width is the SSETPW of that width clamped to the slot's bounds. -/
theorem exec_ssetpw_boundedWidth {g : UnitNo} {s : State} (hg : g.val < s.platform.numGenerators)
    (valid : (s.gen g).valid = true) (le : (s.gen g).minUs.toNat ≤ (s.gen g).maxUs.toNat) (x : Int) :
    exec (.ssetpw g (boundedWidth (s.gen g) x)) s = .next (pulseCommand g (x, s)) := by
  have same : pulseWrite g (boundedWidth (s.gen g) x).toNat s = pulseWrite g x s := by
    refine pulseWrite_congr ?_
    rw [boundedWidth_toNat, clamp_clamp x (Int.ofNat_le.mpr le)]
  rw [exec_ssetpw_next hg valid, pulseCommand, pulseCommand, same]

/-! ## Requested widths (R204, R208, R212, R216) -/

theorem requestWidth_finite {x : Word} {q : Ratio} (hx : f32 x = .finite q) (g : UnitNo)
    (target : GenRec → Ratio → Int) (s : State) : requestWidth g target x s = (target (s.gen g) q, s) := by
  simp only [requestWidth, hx]

theorem requestWidth_negInf {x : Word} (hx : f32 x = .negInf) (g : UnitNo) (target : GenRec → Ratio → Int)
    (s : State) : requestWidth g target x s = (((s.gen g).minUs.toNat : Int), s) := by
  simp only [requestWidth, hx]

theorem requestWidth_posInf {x : Word} (hx : f32 x = .posInf) (g : UnitNo) (target : GenRec → Ratio → Int)
    (s : State) : requestWidth g target x s = (((s.gen g).maxUs.toNat : Int), s) := by
  simp only [requestWidth, hx]

/-- For a NaN some width is asked, and a draw counted. -/
theorem requestWidth_nan {x : Word} (hx : f32 x = .nan) (g : UnitNo) (target : GenRec → Ratio → Int) (s : State) :
    ∃ w, requestWidth g target x s = (w, (drawHalf s).2) := by
  simp only [requestWidth, hx]
  exact ⟨_, rfl⟩

/-- The denominator of a binary32 value is positive (R23). -/
theorem den_pos_of_f32 {x : Word} {q : Ratio} (hx : f32 x = .finite q) : 0 < q.den := by
  by_cases he : (x.extractLsb' 23 8).toNat = 255
  · by_cases hf : (x.extractLsb' 0 23).toNat = 0
    · rw [f32_of_infinity he hf] at hx
      split at hx <;> cases hx
    · rw [f32_of_nan he hf] at hx
      cases hx
  · rw [f32_of_finite he] at hx
    cases hx
    exact scaledRatio_den_pos ..

theorem angleTarget_below {r : GenRec} {q : Ratio} (h : q.num < -90 * (q.den : Int)) :
    angleTarget r q = r.minUs.toNat := if_pos h

theorem angleTarget_above {r : GenRec} {q : Ratio} (h : 90 * (q.den : Int) < q.num) :
    angleTarget r q = r.maxUs.toNat := by
  have notBelow : ¬ q.num < -90 * (q.den : Int) := by omega
  exact (if_neg notBelow).trans (if_pos h)

/-- From -90 to 90 the formula applies, at the ends too (R207). -/
theorem angleTarget_mem {r : GenRec} {q : Ratio} (lo : -90 * (q.den : Int) ≤ q.num)
    (hi : q.num ≤ 90 * (q.den : Int)) : angleTarget r q = r.mid.toNat + rnd (q.num * r.mpd.toNat) q.den :=
  (if_neg lo.not_gt).trans (if_neg hi.not_gt)

theorem percentTarget_below {r : GenRec} {q : Ratio} (h : q.num < 0) : percentTarget r q = r.minUs.toNat := if_pos h

theorem percentTarget_above {r : GenRec} {q : Ratio} (h : 100 * (q.den : Int) < q.num) :
    percentTarget r q = r.maxUs.toNat := by
  have notBelow : ¬ q.num < 0 := by omega
  exact (if_neg notBelow).trans (if_pos h)

/-- From 0 to 100 the formula applies, at the ends too (R214). -/
theorem percentTarget_mem {r : GenRec} {q : Ratio} (lo : 0 ≤ q.num) (hi : q.num ≤ 100 * (q.den : Int)) :
    percentTarget r q = rnd (q.num * r.mpp.toNat) q.den :=
  (if_neg lo.not_gt).trans (if_neg hi.not_gt)

/-- A target of 0 is clamped to MIN. -/
theorem boundedWidth_zero {r : GenRec} (le : r.minUs.toNat ≤ r.maxUs.toNat) : boundedWidth r 0 = r.minUs := by
  have width := boundedWidth_toNat_of_le le 0
  exact BitVec.eq_of_toNat_eq (by omega)

/-- At 0 percent, -0.0 included, the width is MIN (R215). -/
theorem boundedWidth_percent_zero {r : GenRec} {q : Ratio} (le : r.minUs.toNat ≤ r.maxUs.toNat) (zero : q.num = 0) :
    boundedWidth r (percentTarget r q) = r.minUs := by
  rw [percentTarget_mem (by omega) (by omega), zero, zero_mul, rnd_zero, boundedWidth_zero le]

/-- At 100 percent the width is `100 * MPP` clamped (R215). -/
theorem boundedWidth_percent_full {r : GenRec} {q : Ratio} (lt : r.minUs.toNat < r.maxUs.toNat)
    (den_pos : 0 < q.den) (full : q.num = 100 * (q.den : Int)) :
    (boundedWidth r (percentTarget r q)).toNat = max r.minUs.toNat (min (100 * r.mpp.toNat) r.maxUs.toNat) ∧
      (boundedWidth r (percentTarget r q) = r.maxUs ↔ r.maxUs.toNat ≤ 100 * r.mpp.toNat) := by
  have target : percentTarget r q = (100 * r.mpp.toNat : Nat) := by
    rw [percentTarget_mem (by omega) full.le, full, mul_right_comm, rnd_mul_self _ den_pos]
    rfl
  have width := boundedWidth_toNat_of_le lt.le (percentTarget r q)
  rw [← BitVec.toNat_inj]
  omega

/-- Where MPP is 0, every percentage in range gives MIN (R215). -/
theorem boundedWidth_percent_flat {r : GenRec} {q : Ratio} (le : r.minUs.toNat ≤ r.maxUs.toNat) (flat : r.mpp = 0)
    (lo : 0 ≤ q.num) (hi : q.num ≤ 100 * (q.den : Int)) : boundedWidth r (percentTarget r q) = r.minUs := by
  have mpp : r.mpp.toNat = 0 := congrArg BitVec.toNat flat
  rw [percentTarget_mem lo hi, mpp, Nat.cast_zero, mul_zero, rnd_zero, boundedWidth_zero le]

/-- The SSETPW a pulse command of a finite value is: that of its target, clamped. -/
theorem exec_ssetpw_of_finite {g : UnitNo} {s : State} {x : Word} {q : Ratio}
    (hg : g.val < s.platform.numGenerators) (valid : (s.gen g).valid = true)
    (le : (s.gen g).minUs.toNat ≤ (s.gen g).maxUs.toNat) (hx : f32 x = .finite q) (target : GenRec → Ratio → Int) :
    exec (.ssetpw g (boundedWidth (s.gen g) (target (s.gen g) q))) s =
      .next (pulseCommand g (requestWidth g target x s)) := by
  rw [requestWidth_finite hx]
  exact exec_ssetpw_boundedWidth hg valid le _

theorem exec_ssetpw_of_negInf {g : UnitNo} {s : State} {x : Word} (hg : g.val < s.platform.numGenerators)
    (valid : (s.gen g).valid = true) (hx : f32 x = .negInf) (target : GenRec → Ratio → Int) :
    exec (.ssetpw g (s.gen g).minUs) s = .next (pulseCommand g (requestWidth g target x s)) := by
  rw [requestWidth_negInf hx]
  exact exec_ssetpw_next hg valid _

theorem exec_ssetpw_of_posInf {g : UnitNo} {s : State} {x : Word} (hg : g.val < s.platform.numGenerators)
    (valid : (s.gen g).valid = true) (hx : f32 x = .posInf) (target : GenRec → Ratio → Int) :
    exec (.ssetpw g (s.gen g).maxUs) s = .next (pulseCommand g (requestWidth g target x s)) := by
  rw [requestWidth_posInf hx]
  exact exec_ssetpw_next hg valid _

/-- The width a pulse command of a finite value stores. -/
theorem pw_of_finite {x : Word} {q : Ratio} (hx : f32 x = .finite q) (g : UnitNo) (target : GenRec → Ratio → Int)
    (s : State) :
    ((pulseCommand g (requestWidth g target x s)).gen g).pw = boundedWidth (s.gen g) (target (s.gen g) q) := by
  rw [requestWidth_finite hx, gen_pulseCommand_self]
  rfl

/-- A pulse command of a NaN is the SSETPW of some width within the bounds, with a draw counted (R208, R216). -/
theorem exec_ssetpw_of_nan {g : UnitNo} {s : State} {x : Word} (hg : g.val < s.platform.numGenerators)
    (valid : (s.gen g).valid = true) (le : (s.gen g).minUs.toNat ≤ (s.gen g).maxUs.toNat) (hx : f32 x = .nan)
    (target : GenRec → Ratio → Int) :
    ∃ pw : Half, (s.gen g).minUs.toNat ≤ pw.toNat ∧ pw.toNat ≤ (s.gen g).maxUs.toNat ∧
      exec (.ssetpw g pw) (drawHalf s).2 = .next (pulseCommand g (requestWidth g target x s)) ∧
      ((pulseCommand g (requestWidth g target x s)).gen g).pw = pw := by
  obtain ⟨w, drawn⟩ := requestWidth_nan hx g target s
  obtain ⟨lo, hi⟩ := boundedWidth_bounds le w
  rw [drawn]
  refine ⟨boundedWidth (s.gen g) w, lo, hi, exec_ssetpw_boundedWidth (s := (drawHalf s).2) hg valid le w, ?_⟩
  rw [gen_pulseCommand_self]
  rfl

/-! ## The channel of a slot (R155, R198, R199) -/

/-- A pulse write's mask names the slot's channel alone. -/
theorem selected_maskOf (c : TimerCfg) (ch ch' : Channel) :
    selected c (maskOf ch) ch' = (decide (ch' = ch) && chanPresent c ch') := by
  cases ch <;> cases ch' <;> rfl

theorem compareEvents_maskOf (c : TimerCfg) (t : UnitNo) (ch : Channel) (v : Half) :
    compareEvents c t (maskOf ch) v = if chanPresent c ch then [.write t (ocrReg ch) (timerWide c v)] else [] := by
  cases ch <;> simp [compareEvents, selected_maskOf, ocrReg]

theorem compareShadow_maskOf (l : Layout) (c : TimerCfg) (ch : Channel) (inv : Bool) (sh : Shadow) :
    compareShadow l c (maskOf ch) inv sh =
      if chanPresent c ch then setShadowCom ch (if inv then l.comSet else l.comClear) sh else sh := by
  cases ch <;> cases present : chanPresent c _ <;> simp [compareShadow, selected_maskOf, setShadowCom, present]

theorem lastWrite_ocrReg_commitEvents (l : Layout) (c : TimerCfg) (t : UnitNo) (ch : Channel) (sh : Shadow) :
    lastWrite t (ocrReg ch) (commitEvents l c t sh) = none := by
  refine lastWrite_eq_none fun v h => ?_
  obtain ⟨-, control⟩ := write_mem_commitEvents h
  cases ch <;> simp [ocrReg] at control

/-- The compare register of a present channel holds the value written, at the timer's width (R159). -/
theorem lastWrite_ocrReg_compareTrace {c : TimerCfg} {ch : Channel} (present : chanPresent c ch = true) (l : Layout)
    (t : UnitNo) (v : Half) (sh : Shadow) (ie : Bool) :
    lastWrite t (ocrReg ch) (compareTrace l c t (maskOf ch) v sh ie) = some (timerWide c v) := by
  rw [compareTrace, compareEvents_maskOf, if_pos present]
  simp [lastWrite_append, lastWrite_ocrReg_commitEvents, lastWrite]

theorem lastWrite_ocrReg_pulseWrite {s : State} {g : UnitNo}
    (present : chanPresent (s.cfg (s.gen g).timer) (s.gen g).ch = true) (x : Int) :
    lastWrite (s.gen g).timer (ocrReg (s.gen g).ch) (pulseWrite g x s).trace =
      some (timerWide (s.cfg (s.gen g).timer) (pulseValue g x s)) := by
  rw [trace_pulseWrite, lastWrite_append, pulseTrace, lastWrite_ocrReg_compareTrace present, Option.some_or]

/-! ## Repeated pulse writes (R202) -/

/-- Channels connected twice are connected once. -/
theorem compareShadow_idem (l : Layout) (c : TimerCfg) (mask : BitVec 3) (inv : Bool) (sh : Shadow) :
    compareShadow l c mask inv (compareShadow l c mask inv sh) = compareShadow l c mask inv sh := by
  simp only [compareShadow, Shadow.mk.injEq, ite_eq_right_iff, true_and]
  simp +contextual

/-- A pulse write leaves its timer's shadow as another one would. -/
theorem pulseShadow_pulseWrite (g : UnitNo) (x : Int) (s : State) :
    pulseShadow (pulseWrite g x s) ((pulseWrite g x s).gen g) = pulseShadow s (s.gen g) := by
  unfold pulseShadow
  rw [gen_pulseWrite_eq_withWidth, withWidth_timer, pulseWrite_platform, cfg_congr (pulseWrite_platform g x s),
    timer_of_set_self (timers_pulseWrite g x s)]
  exact compareShadow_idem ..

/-- Two pulse writes of `x` on slot `g` write one value: a tick count in range, or 0xFFFF under SATURATE (R199). -/
def Undrawn (g : UnitNo) (x : Int) (s : State) : Prop :=
  s.platform.overrange = .saturate ∨ pulseTicks (s.gen g) x ≤ 0xFFFF

theorem pulseValue_of_undrawn {g : UnitNo} {x : Int} {s : State} (undrawn : Undrawn g x s) :
    pulseValue g x s =
      if pulseTicks (s.gen g) x ≤ 0xFFFF then BitVec.ofNat 16 (pulseTicks (s.gen g) x) else 0xFFFF := by
  rw [pulseValue_eq]
  rcases undrawn with saturate | inRange
  · simp [saturate]
  · rw [if_pos inRange, if_pos inRange]

theorem pulseValue_pulseWrite {g : UnitNo} {x : Int} {s : State} (undrawn : Undrawn g x s) :
    pulseValue g x (pulseWrite g x s) = pulseValue g x s := by
  have again : Undrawn g x (pulseWrite g x s) := by
    unfold Undrawn
    rw [pulseWrite_platform, gen_pulseWrite_eq_withWidth]
    exact undrawn
  rw [pulseValue_of_undrawn again, pulseValue_of_undrawn undrawn, gen_pulseWrite_eq_withWidth]
  rfl

/-- A repeated pulse write adds the events of the first. -/
theorem pulseTrace_pulseWrite {g : UnitNo} {x : Int} {s : State} (undrawn : Undrawn g x s) :
    pulseTrace g x (pulseWrite g x s) = pulseTrace g x s := by
  unfold pulseTrace
  rw [pulseValue_pulseWrite undrawn, pulseShadow_pulseWrite, gen_pulseWrite_eq_withWidth, pulseWrite_platform,
    cfg_congr (pulseWrite_platform g x s), ie_pulseWrite]
  rfl

/-- A repeated pulse write leaves the timer records as the first left them. -/
theorem timers_pulseWrite_pulseWrite (g : UnitNo) (x : Int) (s : State) :
    (pulseWrite g x (pulseWrite g x s)).timers = (pulseWrite g x s).timers := by
  have record := timer_of_set_self (timers_pulseWrite g x s)
  have stored : { (pulseWrite g x s).timer ((pulseWrite g x s).gen g).timer with
      shadow := pulseShadow (pulseWrite g x s) ((pulseWrite g x s).gen g) } =
      (pulseWrite g x s).timer ((pulseWrite g x s).gen g).timer := by
    rw [pulseShadow_pulseWrite, gen_pulseWrite_eq_withWidth, withWidth_timer, record]
  rw [timers_pulseWrite, stored]
  exact congrArg State.timers (setTimer_timer (pulseWrite g x s) _)

/-- A repeated pulse write leaves the slots as the first left them. -/
theorem gens_pulseWrite_pulseWrite (g : UnitNo) (x : Int) (s : State) :
    (pulseWrite g x (pulseWrite g x s)).gens = (pulseWrite g x s).gens := by
  have stored : withWidth ((pulseWrite g x s).gen g) x = (pulseWrite g x s).gen g := by
    rw [gen_pulseWrite_eq_withWidth]
    rfl
  rw [gens_pulseWrite, stored]
  exact congrArg State.gens (setGen_gen (pulseWrite g x s) g)

/-- A pulse write neither reads nor writes RESULT. -/
theorem pulseWrite_setResult (g : UnitNo) (x : Int) (v : Word) (s : State) :
    pulseWrite g x (setResult v s) = setResult v (pulseWrite g x s) := by
  have slot : (setResult v s).gen g = s.gen g := rfl
  have value : pulseValue g x (setResult v s) = pulseValue g x s := by rw [pulseValue_eq, pulseValue_eq]; rfl
  rw [pulseWrite_eq_compareWrite, pulseWrite_eq_compareWrite, slot, value, compareWrite_eq, compareWrite_eq]
  rfl

/-- An SSETPW after a pulse write of its slot. -/
theorem exec_ssetpw_pulseCommand {g : UnitNo} {s : State} (hg : g.val < s.platform.numGenerators)
    (valid : (s.gen g).valid = true) (x : Half) (y : Int) :
    exec (.ssetpw g x) (pulseCommand g (y, s)) = .next (pulseCommand g ((x.toNat : Int), pulseWrite g y s)) := by
  have still : ((pulseCommand g (y, s)).gen g).valid = true := by
    rw [gen_pulseCommand_self]
    exact valid
  have hg' : g.val < (pulseCommand g (y, s)).platform.numGenerators := by
    rw [pulseCommand, setResult_platform, pulseWrite_platform]
    exact hg
  rw [exec_ssetpw_next hg' still, pulseCommand, pulseCommand, pulseWrite_setResult]
  rfl

/-- A generator command other than SINIT that fails a check raises an error. -/
theorem withGenerator_raises {g : UnitNo} {s s' : State} {k : State → State}
    (unfit : ¬ (g.val < s.platform.numGenerators ∧ (s.gen g).valid = true)) (h : withGenerator g s k = .next s') :
    ∃ e, s' = raiseError e s := by
  rcases withGenerator_cases h with ⟨hg, valid, -⟩ | ⟨-, rfl⟩ | ⟨-, rfl⟩
  · exact absurd ⟨hg, valid⟩ unfit
  · exact ⟨_, rfl⟩
  · exact ⟨_, rfl⟩

end Sys2Proof.Machine

open Sys2Proof Sys2Proof.Machine

/-- Settles O46: a constructed slot passes the checks. -/
theorem squeryReadsWidth : Obligations.SqueryReadsWidth := fun _ _ hg valid =>
  (exec_squery ..).trans (withGenerator_next _ hg valid)

/-- Settles O40: the pulse write is the compare write of the slot's channel, with the clamp and the tick count in the
spec's terms. -/
theorem ssetpwWritesPulse : Obligations.SsetpwWritesPulse := by
  intro s g x hg valid ht r pw ticks drawn
  have width : boundedWidth r x.toNat = pw := boundedWidth_natCast r x
  have count : pulseTicks r x.toNat = ticks := by rw [pulseTicks_eq, width]
  have value := pulseValue_eq g x.toNat s
  refine ⟨pulseValue g x.toNat s, pulseWrite g x.toNat s, fun inRange => ?_, fun overrange saturate => ?_, ?_, ?_⟩
  · rw [value, count, if_pos inRange, BitVec.toNat_ofNat]
    omega
  · rw [value, count, if_neg (by omega), if_neg (by simp [saturate])]
  · rw [pulseWrite_eq_compareWrite, count, withWidth_eq, width, exec_tsetcmp_next]
    · rfl
    · exact ht
  · exact exec_ssetpw_next hg valid x

/-- Settles O41: the channel's compare register gets the over-range policy's value. -/
theorem overrangeTicks : Obligations.OverrangeTicks := by
  intro s g x hg valid present lo hi overrange t wide
  have width : boundedWidth (s.gen g) x.toNat = x := boundedWidth_of_mem lo hi
  have count : 0xFFFF < pulseTicks (s.gen g) x.toNat := by rwa [pulseTicks_eq, width]
  have value := pulseValue_eq g x.toNat s
  have draws := draws_pulseWrite g x.toNat s
  have written := lastWrite_ocrReg_pulseWrite present (x.toNat : Int)
  rw [if_neg (by omega)] at value
  refine ⟨_, exec_ssetpw_next hg valid x, ?_, rfl, ?_⟩
  · rw [gen_pulseCommand_self]
    exact width
  · cases policy : s.platform.overrange
    · rw [if_neg (by simp [policy])] at value draws
      exact ⟨value ▸ written, draws⟩
    · rw [if_pos (by simp [policy])] at value
      rw [if_pos ⟨count, policy⟩] at draws
      exact ⟨value ▸ written, draws⟩

/-- Settles O42: the angle's target, clamped, is the width SSETPW is given. -/
theorem ssetangWritesPulse : Obligations.SsetangWritesPulse := by
  intro s g x hg valid le r
  have asked := exec_ssetang_next hg valid x
  refine ⟨fun hx => ⟨_, asked, exec_ssetpw_of_negInf hg valid hx _⟩,
    fun hx => ⟨_, asked, exec_ssetpw_of_posInf hg valid hx _⟩,
    fun q hx => ⟨boundedWidth r (angleTarget r q), _, fun below => ?_, fun above => ?_, fun lo hi => ?_, asked,
      exec_ssetpw_of_finite hg valid le hx _, pw_of_finite hx .., rfl⟩⟩
  · rw [angleTarget_below below, boundedWidth_of_mem le_rfl le]
  · rw [angleTarget_above above, boundedWidth_of_mem le le_rfl]
  · rw [boundedWidth_toNat_of_le le, angleTarget_mem lo hi]

/-- Settles O43: the percentage's target, clamped, is the width SSETPW is given. -/
theorem ssetposWritesPulse : Obligations.SsetposWritesPulse := by
  intro s g x hg valid le r
  have asked := exec_ssetpos_next hg valid x
  refine ⟨fun hx => ⟨_, asked, exec_ssetpw_of_negInf hg valid hx _⟩,
    fun hx => ⟨_, asked, exec_ssetpw_of_posInf hg valid hx _⟩,
    fun q hx => ⟨boundedWidth r (percentTarget r q), _, fun below => ?_, fun above => ?_, fun lo hi => ?_, asked,
      exec_ssetpw_of_finite hg valid le hx _, pw_of_finite hx .., rfl⟩⟩
  · rw [percentTarget_below below, boundedWidth_of_mem le_rfl le]
  · rw [percentTarget_above above, boundedWidth_of_mem le le_rfl]
  · rw [boundedWidth_toNat_of_le le, percentTarget_mem lo hi]

/-- Settles O44: each command has its own draw, clamped to the bounds. -/
theorem nanWidthIsBoundedDraw : Obligations.NanWidthIsBoundedDraw := by
  intro s g x hg valid le hx
  obtain ⟨pw, lo, hi, written, stored⟩ := exec_ssetpw_of_nan hg valid le hx angleTarget
  obtain ⟨pw', lo', hi', written', stored'⟩ := exec_ssetpw_of_nan hg valid le hx percentTarget
  exact ⟨⟨pw, _, lo, hi, exec_ssetang_next hg valid x, written, stored, rfl⟩,
    pw', _, lo', hi', exec_ssetpos_next hg valid x, written', stored', rfl⟩

/-- Settles O45: the width stored is the percentage's target, clamped. -/
theorem ssetposEndpoints : Obligations.SsetposEndpoints := by
  intro s g x q hg valid lt hx r
  refine ⟨_, exec_ssetpos_next hg valid x, ?_⟩
  rw [pw_of_finite hx]
  exact ⟨boundedWidth_percent_zero lt.le, boundedWidth_percent_full lt (den_pos_of_f32 hx),
    boundedWidth_percent_flat lt.le⟩

/-- Settles O47: the second write finds the width and the shadow of the first, and its value is no draw. -/
theorem repeatedWidthWriteIsIdentical : Obligations.RepeatedWidthWriteIsIdentical := by
  intro s s₁ s₂ g x r pw sameValue h₁ h₂
  by_cases fit : g.val < s.platform.numGenerators ∧ (s.gen g).valid = true
  · obtain ⟨hg, valid⟩ := fit
    have width : boundedWidth r x.toNat = pw := boundedWidth_natCast r x
    have undrawn : Undrawn g x.toNat s := by
      unfold Undrawn
      rwa [pulseTicks_eq, width]
    rw [exec_ssetpw_next hg valid] at h₁
    cases h₁
    rw [exec_ssetpw_pulseCommand hg valid] at h₂
    cases h₂
    refine ⟨pulseTrace g x.toNat s, trace_pulseWrite .., ?_, timers_pulseWrite_pulseWrite ..,
      gens_pulseWrite_pulseWrite ..⟩
    rw [← pulseTrace_pulseWrite undrawn]
    exact trace_pulseWrite g x.toNat (pulseWrite g x.toNat s)
  · rw [exec_ssetpw] at h₁ h₂
    obtain ⟨e, rfl⟩ := withGenerator_raises fit h₁
    obtain ⟨e', rfl⟩ := withGenerator_raises (s := raiseError e s) fit h₂
    exact ⟨[], by simp, by simp, rfl, rfl⟩

end

section
/-! The family of 41_pulse.md, continued: SINIT as a sequence of effects, and what the generator commands leave
alone. -/

namespace Sys2Proof.Machine

/-! ## SINIT (R180, R191–R193) -/

/-- The state after an SINIT constructed slot `g` as `r` and requested its pin (R180, R183). -/
def requested (g : UnitNo) (r : GenRec) (s : State) : State := emit (.pinOut r.pin) (setGen g r s)

theorem constructGenerator_eq (g : UnitNo) (pin mn mx init : Half) (t : UnitNo) (ch : Channel) (p : Prescaler) (n : Nat)
    (s : State) :
    constructGenerator g pin mn mx init t ch p n s =
      pulseWrite g init.toNat
        (configureTimer t p n (requested g (newGenerator pin mn mx t ch n (s.gen g).pw) s)) := rfl

@[simp] theorem gen_requested (g : UnitNo) (r : GenRec) (s : State) : (requested g r s).gen g = r :=
  (gen_congr (emit_gens ..) g).trans (gen_setGen_self ..)

/-- The slot whose first width is about to be written is the one constructed. -/
theorem gen_configureTimer_requested (t g : UnitNo) (p : Prescaler) (n : Nat) (r : GenRec) (s : State) :
    (configureTimer t p n (requested g r s)).gen g = r :=
  (gen_congr (configureTimer_gens ..) g).trans (gen_requested ..)

theorem configureTimer_of_configured {t : UnitNo} {p : Prescaler} {n : Nat} {s : State}
    (h : configured s t p n = true) : configureTimer t p n s = s := if_pos h

theorem configureTimer_of_not_configured {t : UnitNo} {p : Prescaler} {n : Nat} {s : State}
    (h : ¬ configured s t p n = true) :
    configureTimer t p n s = modeFast t (BitVec.ofNat 16 (n - 1)) (stagePrescaler t p s) := if_neg h

theorem configured_iff (s : State) (t : UnitNo) (p : Prescaler) (n : Nat) :
    configured s t p n = true ↔
      (s.timer t).mode = .fastPwm ∧ (s.timer t).psApplied = p ∧ (s.timer t).top = BitVec.ofNat 16 (n - 1) := by
  simp only [configured, Bool.and_eq_true, decide_eq_true_eq, and_assoc]

/-- A legal tick count less 1 fits TOP. -/
theorem top_toNat {n : Nat} (hn : n ≤ 65536) : (BitVec.ofNat 16 (n - 1)).toNat = n - 1 := by
  rw [BitVec.toNat_ofNat]
  omega

/-- The match condition of R191 with the period as a number. -/
theorem configured_iff_toNat {n : Nat} (hn : n ≤ 65536) (s : State) (t : UnitNo) (p : Prescaler) :
    configured s t p n = true ↔
      (s.timer t).mode = .fastPwm ∧ (s.timer t).psApplied = p ∧ (s.timer t).top.toNat = n - 1 := by
  rw [configured_iff, ← BitVec.toNat_inj, top_toNat hn]

/-- Whether a timer is configured depends on its cache alone, not on its shadow. -/
theorem configured_congr {s s' : State} {t : UnitNo} {sh : Shadow} (h : s'.timer t = { s.timer t with shadow := sh })
    (p : Prescaler) (n : Nat) : configured s' t p n = configured s t p n := by
  simp only [configured, h]

theorem psApplied_modeFast (t : UnitNo) (top : Half) (s : State) :
    ((modeFast t top s).timer t).psApplied = (s.timer t).psStaged := by
  rw [modeFast_eq, timer_of_set_self (timers_modeSet ..)]
  rfl

/-- Configuring a timer leaves it configured (R191, R192). -/
theorem configured_configureTimer (t : UnitNo) (p : Prescaler) (n : Nat) (s : State) :
    configured (configureTimer t p n s) t p n = true := by
  by_cases h : configured s t p n = true
  · rwa [configureTimer_of_configured h]
  · obtain ⟨mode, top⟩ := timer_modeFast t (BitVec.ofNat 16 (n - 1)) (stagePrescaler t p s)
    have applied := psApplied_modeFast t (BitVec.ofNat 16 (n - 1)) (stagePrescaler t p s)
    rw [configureTimer_of_not_configured h, configured_iff, applied]
    exact ⟨mode, congrArg TimerRec.psStaged (timer_setTimer_self s t _), top⟩

/-- An SINIT leaves its pin's timer configured. -/
theorem configured_constructGenerator (g : UnitNo) (pin mn mx init : Half) (t : UnitNo) (ch : Channel) (p : Prescaler)
    (n : Nat) (s : State) : configured (constructGenerator g pin mn mx init t ch p n s) t p n = true := by
  rw [constructGenerator_eq]
  obtain ⟨sh, pulsed⟩ := timer_pulseWrite g init.toNat t
    (configureTimer t p n (requested g (newGenerator pin mn mx t ch n (s.gen g).pw) s))
  rw [configured_congr pulsed]
  exact configured_configureTimer ..

/-- On a configured timer an SINIT is the pin request and a pulse write (R191). -/
theorem constructGenerator_of_configured {s : State} {t : UnitNo} {p : Prescaler} {n : Nat}
    (h : configured s t p n = true) (g : UnitNo) (pin mn mx init : Half) (ch : Channel) :
    constructGenerator g pin mn mx init t ch p n s =
      pulseWrite g init.toNat (requested g (newGenerator pin mn mx t ch n (s.gen g).pw) s) := by
  rw [constructGenerator_eq]
  exact congrArg _ (configureTimer_of_configured h)

/-- Recording an error leaves ERR = 1 (R231). -/
theorem statusErr_recordError (e : ErrCode) (st : Byte) : statusErr (recordError e st) = true := by
  unfold recordError
  split
  · assumption
  · cases e <;> decide

/-- An SINIT that finds ERR = 0 and leaves STATUS alone passed its checks (R231). -/
theorem sinit_completes {g : UnitNo} {pin mn mx init : Half} {s s' : State}
    (h : exec (.sinit g pin mn mx init) s = .next s') (noError : s'.status = s.status)
    (err : statusErr s.status = false) :
    ∃ t ch p n, s.platform.pinMap.lookup pin = some (t, ch) ∧ autoTune (s.cfg t).fclk = some (p, n) ∧
      s' = constructGenerator g pin mn mx init t ch p n s := by
  rcases sinit_cases h with ⟨e, rfl, -⟩ | ⟨t, ch, p, n, -, hp, ha, made⟩
  · have recorded : recordError e s.status = s.status := noError
    have raised := statusErr_recordError e s.status
    rw [recorded, err] at raised
    cases raised
  · exact ⟨t, ch, p, n, hp, ha, made⟩

/-- A pulse command without its success indicator is the pulse write (R193, R196). -/
theorem pulseCommand_with_result {g : UnitNo} {x : Int} {v : Word} {s : State} (h : (pulseWrite g x s).result = v) :
    { pulseCommand g (x, s) with result := v } = pulseWrite g x s := by
  rw [← h]
  rfl

theorem exec_tsetps_psCode {t : UnitNo} {s : State} (ht : t.val < s.platform.numTimers) (p : Prescaler) :
    exec (.tsetps t (psCode p)) s = .next (stagePrescaler t p s) := by
  rw [exec_tsetps, withTimer_next _ ht, psOfCode_psCode]

theorem exec_tmodef_next {t : UnitNo} {s : State} (ht : t.val < s.platform.numTimers) (top : Half) :
    exec (.tmodef t top) s = .next (modeFast t top s) :=
  (exec_tmodef ..).trans (withTimer_next _ ht)

/-- The bounds an SINIT keeps, with the defaults written out (R15, R181). -/
theorem validBounds_eq (mn mx : Half) :
    validBounds mn mx =
      (if mx.toNat ≤ mn.toNat then 1000 else mn, if mx.toNat ≤ mn.toNat then 2000 else mx) := by
  unfold validBounds
  split <;> rfl

theorem newGenerator_eq (pin mn mx : Half) (t : UnitNo) (ch : Channel) (n : Nat) (pw : Half) :
    newGenerator pin mn mx t ch n pw =
      (let lo : Half := if mx.toNat ≤ mn.toNat then 1000 else mn
       let hi : Half := if mx.toNat ≤ mn.toNat then 2000 else mx
       { valid := true, pin := pin, timer := t, ch := ch, minUs := lo, maxUs := hi, mid := midUs lo hi
         mpd := microsPerDegree lo hi, mpp := microsPerPercent lo hi, n := BitVec.ofNat 17 n, pw := pw }) := by
  unfold newGenerator
  rw [validBounds_eq]

/-- The first width is the initial one clamped to the bounds kept (R193). -/
theorem pw_newGenerator (pin mn mx init : Half) (t : UnitNo) (ch : Channel) (n : Nat) (pw : Half) :
    (boundedWidth (newGenerator pin mn mx t ch n pw) init.toNat).toNat =
      max (validBounds mn mx).1.toNat (min init.toNat (validBounds mn mx).2.toNat) := by
  have width := boundedWidth_toNat_of_le (r := newGenerator pin mn mx t ch n pw) (validBounds_lt mn mx).le init.toNat
  exact_mod_cast width

/-! ## The second SINIT on a pin (R191, R194) -/

/-- A stretch of trace that leaves the counters and the TOPs alone. -/
def KeepsPhase (evs : List Event) : Prop := ∀ t v, Event.write t .cnt v ∉ evs ∧ Event.write t .icr v ∉ evs

theorem keepsPhase_nil : KeepsPhase [] := by simp [KeepsPhase]

theorem keepsPhase_pulseTrace (pin : Half) (g : UnitNo) (x : Int) (s : State) :
    KeepsPhase ([.pinOut pin] ++ pulseTrace g x s) := by
  intro t v
  simp only [List.mem_append, List.mem_singleton, reduceCtorEq, false_or]
  exact ⟨fun h => by simpa using reg_of_mem_compareTrace h, fun h => by simpa using reg_of_mem_compareTrace h⟩

/-- An SINIT that finds its pin's timer configured does not touch counter and TOP. -/
theorem keepsPhase_constructGenerator {s : State} {t : UnitNo} {p : Prescaler} {n : Nat}
    (h : configured s t p n = true) (g : UnitNo) (pin mn mx init : Half) (ch : Channel) :
    ∃ evs, (constructGenerator g pin mn mx init t ch p n s).trace = s.trace ++ evs ∧ KeepsPhase evs := by
  rw [constructGenerator_of_configured h]
  exact ⟨_, (trace_pulseWrite ..).trans (List.append_assoc ..), keepsPhase_pulseTrace _ _ _ _⟩

/-! ## Frame of the generator commands other than SINIT (R196, R204, R212, R224) -/

/-- `i` is a generator command other than SINIT, on slot `g` (R114). -/
def PulseOrQuery (i : Instr) (g : UnitNo) : Prop :=
  (∃ pw, i = .ssetpw g pw) ∨ (∃ x, i = .ssetang g x) ∨ (∃ x, i = .ssetpos g x) ∨ i = .squery g

theorem effect_of_withGenerator {g : UnitNo} {s s' : State} {k : State → State}
    (unit : decide (g.val < s.platform.numGenerators) = true) (valid : (s.gen g).valid = true)
    (h : withGenerator g s k = .next s') : s' = k s := by
  rw [withGenerator_next k (of_decide_eq_true unit) valid] at h
  exact (Host.Outcome.next.inj h).symm

/-- The unit and VALID are all such a command checks. -/
theorem completes_of_valid {i : Instr} {g : UnitNo} {s s' : State} (pulse : PulseOrQuery i g)
    (fits : i.fits s.platform = true) (valid : (s.gen g).valid = true) (h : exec i s = .next s') :
    Completes i s s' := by
  have unit := unitFits_of_fits fits
  rcases pulse with ⟨pw, rfl⟩ | ⟨x, rfl⟩ | ⟨x, rfl⟩ | rfl
  · rw [exec_ssetpw] at h
    have effect := effect_of_withGenerator unit valid h
    exact ⟨valid, effect⟩
  · rw [exec_ssetang] at h
    have effect := effect_of_withGenerator unit valid h
    exact ⟨valid, effect⟩
  · rw [exec_ssetpos] at h
    have effect := effect_of_withGenerator unit valid h
    exact ⟨valid, effect⟩
  · rw [exec_squery] at h
    have effect := effect_of_withGenerator unit valid h
    exact ⟨valid, effect⟩

theorem setShadowCom_shadowCom (ch : Channel) (sh : Shadow) : setShadowCom ch (shadowCom sh ch) sh = sh := by
  cases ch <;> rfl

/-- `s` with a width in slot `g` and a COM field of the slot's channel, and `s'` for the rest a generator command may
change: trace, STATUS, RESULT and draws. -/
def withPulse (g : UnitNo) (com : BitVec 2) (pw : Half) (s s' : State) : State :=
  { s with
    gens := s.gens.set g.val { s.gen g with pw := pw }
    timers := s.timers.set (s.gen g).timer.val
      { s.timer (s.gen g).timer with
        shadow := setShadowCom (s.gen g).ch com (s.timer (s.gen g).timer).shadow }
    trace := s'.trace, status := s'.status, result := s'.result, draws := s'.draws }

/-- From `s` to `s'` nothing changes but what `withPulse` names. -/
def ChangesPulseOnly (g : UnitNo) (s s' : State) : Prop := ∃ com pw, s' = withPulse g com pw s s'

theorem ChangesPulseOnly.eq {g : UnitNo} {s s' : State} (h : ChangesPulseOnly g s s') :
    ∃ com, s' = withPulse g com (s'.gen g).pw s s' := by
  obtain ⟨com, pw, same⟩ := h
  have stored : (s'.gen g).pw = pw := by
    rw [same]
    simp [withPulse, State.gen]
  exact ⟨com, stored ▸ same⟩

/-- Writing a slot and a timer's record back changes nothing. -/
theorem set_records_self (g t : UnitNo) (s : State) :
    { s with gens := s.gens.set g.val (s.gen g), timers := s.timers.set t.val (s.timer t) } = s :=
  (setGen_gen (setTimer t (s.timer t) s) g).trans (setTimer_timer s t)

/-- A change of trace, STATUS, RESULT and draws alone. -/
theorem changesPulseOnly_of_records_eq {g : UnitNo} {s s' : State}
    (same : s' = { s with trace := s'.trace, status := s'.status, result := s'.result, draws := s'.draws }) :
    ChangesPulseOnly g s s' := by
  have gens : s.gens.set g.val (s.gen g) = s.gens := congrArg State.gens (setGen_gen s g)
  have timers : s.timers.set (s.gen g).timer.val (s.timer (s.gen g).timer) = s.timers :=
    congrArg State.timers (setTimer_timer s (s.gen g).timer)
  refine ⟨shadowCom (s.timer (s.gen g).timer).shadow (s.gen g).ch, (s.gen g).pw, ?_⟩
  rw [withPulse, setShadowCom_shadowCom, gens, timers]
  exact same

/-- What a pulse write makes of the COM field of the slot's channel: `COM_CLEAR` where the channel is present (R160,
R200). -/
theorem pulseShadow_eq (s : State) (r : GenRec) :
    ∃ com, pulseShadow s r = setShadowCom r.ch com (s.timer r.timer).shadow := by
  rw [pulseShadow, compareShadow_maskOf]
  split
  · exact ⟨_, rfl⟩
  · exact ⟨_, (setShadowCom_shadowCom ..).symm⟩

/-- A requested width comes with the state it was asked in, but for the draws. -/
theorem requestWidth_state (g : UnitNo) (f : GenRec → Ratio → Int) (x : Word) (s : State) :
    ∃ w d, requestWidth g f x s = (w, { s with draws := d }) := by
  unfold requestWidth
  split <;> exact ⟨_, _, rfl⟩

theorem changesPulseOnly_pulseCommand (g : UnitNo) (x : Int) (d : Nat) (s : State) :
    ChangesPulseOnly g s (pulseCommand g (x, { s with draws := d })) := by
  obtain ⟨com, shadow⟩ := pulseShadow_eq s (s.gen g)
  refine ⟨com, boundedWidth (s.gen g) x, ?_⟩
  rw [withPulse, ← shadow, pulseCommand, pulseWrite_eq_compareWrite, compareWrite_eq]
  rfl

theorem changesPulseOnly_requestWidth (g : UnitNo) (f : GenRec → Ratio → Int) (x : Word) (s : State) :
    ChangesPulseOnly g s (pulseCommand g (requestWidth g f x s)) := by
  obtain ⟨w, d, asked⟩ := requestWidth_state g f x s
  rw [asked]
  exact changesPulseOnly_pulseCommand g w d s

theorem exec_changesPulseOnly {i : Instr} {g : UnitNo} {s s' : State} (pulse : PulseOrQuery i g)
    (h : exec i s = .next s') : ChangesPulseOnly g s s' := by
  rcases exec_cases h with ⟨e, rfl⟩ | ⟨-, completes⟩
  · exact changesPulseOnly_of_records_eq rfl
  rcases pulse with ⟨pw, rfl⟩ | ⟨x, rfl⟩ | ⟨x, rfl⟩ | rfl
  · obtain ⟨-, rfl⟩ := completes
    exact changesPulseOnly_pulseCommand g pw.toNat s.draws s
  · obtain ⟨-, rfl⟩ := completes
    exact changesPulseOnly_requestWidth g angleTarget x s
  · obtain ⟨-, rfl⟩ := completes
    exact changesPulseOnly_requestWidth g percentTarget x s
  · obtain ⟨-, rfl⟩ := completes
    exact changesPulseOnly_of_records_eq rfl

/-- SQUERY touches no record, event or draw, whether it completes or raises (R224). -/
theorem squery_records {g : UnitNo} {s s' : State} (h : exec (.squery g) s = .next s') :
    s'.trace = s.trace ∧ s'.timers = s.timers ∧ s'.gens = s.gens ∧ s'.draws = s.draws := by
  rcases exec_cases h with ⟨e, rfl⟩ | ⟨-, -, rfl⟩ <;> exact ⟨rfl, rfl, rfl, rfl⟩

/-! ## Frame of SINIT (R180, R194) -/

/-- From `s` to `s'` nothing changes but slot `g`, the record of timer `t`, the trace, STATUS and the draws. -/
def ChangesSlotOnly (g t : UnitNo) (s s' : State) : Prop :=
  ∃ r tr trace status draws,
    s' = { s with
      gens := s.gens.set g.val r, timers := s.timers.set t.val tr, trace := trace, status := status, draws := draws }

theorem ChangesSlotOnly.eq {g t : UnitNo} {s s' : State} (h : ChangesSlotOnly g t s s') :
    s' = { s with
      gens := s.gens.set g.val (s'.gen g), timers := s.timers.set t.val (s'.timer t)
      trace := s'.trace, status := s'.status, draws := s'.draws } := by
  obtain ⟨r, tr, trace, status, draws, rfl⟩ := h
  simp [State.gen, State.timer]

theorem ChangesSlotOnly.trans {g t : UnitNo} {a b c : State} (ab : ChangesSlotOnly g t a b)
    (bc : ChangesSlotOnly g t b c) : ChangesSlotOnly g t a c := by
  obtain ⟨r, tr, trace, status, draws, rfl⟩ := ab
  obtain ⟨r', tr', trace', status', draws', rfl⟩ := bc
  exact ⟨r', tr', trace', status', draws', by simp⟩

theorem changesSlotOnly_of_timer_update (g t : UnitNo) (tr : TimerRec) (trace : List Event) (s : State) :
    ChangesSlotOnly g t s { s with timers := s.timers.set t.val tr, trace := trace } := by
  have gens : s.gens.set g.val (s.gen g) = s.gens := congrArg State.gens (setGen_gen s g)
  exact ⟨s.gen g, tr, trace, s.status, s.draws, by rw [gens]⟩

theorem changesSlotOnly_raiseError (g t : UnitNo) (e : ErrCode) (s : State) :
    ChangesSlotOnly g t s (raiseError e s) :=
  ⟨_, _, _, _, _, congrArg (raiseError e) (set_records_self g t s).symm⟩

theorem changesSlotOnly_requested (g t : UnitNo) (r : GenRec) (s : State) :
    ChangesSlotOnly g t s (requested g r s) :=
  ⟨_, _, _, _, _, congrArg (requested g r) (setTimer_timer s t).symm⟩

theorem changesSlotOnly_configureTimer (g t : UnitNo) (p : Prescaler) (n : Nat) (s : State) :
    ChangesSlotOnly g t s (configureTimer t p n s) := by
  unfold configureTimer
  split
  · exact ⟨_, _, _, _, _, (set_records_self g t s).symm⟩
  · rw [modeFast_eq, modeSet_eq]
    exact (changesSlotOnly_of_timer_update g t _ _ s).trans (changesSlotOnly_of_timer_update g t _ _ _)

theorem changesSlotOnly_pulseWrite (g : UnitNo) (x : Int) (s : State) :
    ChangesSlotOnly g (s.gen g).timer s (pulseWrite g x s) := by
  rw [pulseWrite_eq_compareWrite, compareWrite_eq]
  exact ⟨_, _, _, _, _, rfl⟩

theorem changesSlotOnly_constructGenerator (g : UnitNo) (pin mn mx init : Half) (t : UnitNo) (ch : Channel)
    (p : Prescaler) (n : Nat) (s : State) :
    ChangesSlotOnly g t s (constructGenerator g pin mn mx init t ch p n s) := by
  have pulse := changesSlotOnly_pulseWrite g init.toNat
    (configureTimer t p n (requested g (newGenerator pin mn mx t ch n (s.gen g).pw) s))
  rw [gen_configureTimer_requested] at pulse
  exact ((changesSlotOnly_requested ..).trans (changesSlotOnly_configureTimer ..)).trans pulse

end Sys2Proof.Machine

open Sys2Proof Sys2Proof.Machine

/-- Settles O36: the slot is the new one with the first width stored, and its timer is configured. -/
theorem sinitConstructsGenerator : Obligations.SinitConstructsGenerator := by
  intro s g pin mn mx init t ch p n hg hp ha lo hi
  obtain ⟨-, n_le⟩ := autoTune_range ha
  have slot := gen_constructGenerator_self g pin mn mx init t ch p n s
  have width := pw_newGenerator pin mn mx init t ch n (s.gen g).pw
  obtain ⟨mode, applied, top⟩ :=
    (configured_iff_toNat n_le ..).mp (configured_constructGenerator g pin mn mx init t ch p n s)
  rw [withWidth_eq] at slot
  rw [newGenerator_eq] at slot width
  rw [validBounds_eq] at width
  have count : (BitVec.ofNat 17 n).toNat = n := (BitVec.toNat_ofNat ..).trans (Nat.mod_eq_of_lt (by omega))
  refine ⟨_, exec_sinit hg hp ha, ?_⟩
  rw [slot]
  exact ⟨rfl, rfl, rfl, rfl, rfl, rfl, rfl, rfl, rfl, count, width, mode, applied, top, constructGenerator_result ..,
    constructGenerator_status ..⟩

/-- Settles O37: the commands on the constructed slot's timer pass their checks, and have the effects an SINIT is made
of. -/
theorem sinitIsCommandSequence : Obligations.SinitIsCommandSequence := by
  intro s g pin mn mx init t ch p n hg hp ht ha matched made
  obtain ⟨-, n_le⟩ := autoTune_range ha
  have slot : made.gen g = newGenerator pin mn mx t ch n (s.gen g).pw := gen_requested g _ s
  have constructed : (made.gen g).valid = true := by rw [slot]; rfl
  have matchedIff : configured made t p n = true ↔ matched := configured_iff_toNat n_le made t p
  have sinit : constructGenerator g pin mn mx init t ch p n s = pulseWrite g init.toNat (configureTimer t p n made) :=
    constructGenerator_eq ..
  have result := constructGenerator_result g pin mn mx init t ch p n s
  rw [sinit] at result
  refine ⟨stagePrescaler t p made, modeFast t (BitVec.ofNat 16 (n - 1)) (stagePrescaler t p made),
    pulseCommand g ((init.toNat : Int), configureTimer t p n made), exec_tsetps_psCode (s := made) ht p,
    exec_tmodef_next (s := stagePrescaler t p made) ht _, fun same => ?_, fun differs => ?_, ?_⟩
  · rw [configureTimer_of_configured (matchedIff.mpr same)]
    exact exec_ssetpw_next (s := made) hg constructed init
  · rw [← configureTimer_of_not_configured (mt matchedIff.mp differs)]
    refine exec_ssetpw_next ?_ ?_ init
    · rw [configureTimer_platform]
      exact hg
    · rwa [gen_congr (configureTimer_gens ..)]
  · rw [exec_sinit hg hp ha, sinit, pulseCommand_with_result result]

/-- Settles O39: the first SINIT leaves the timer as the second one wants it. -/
theorem repeatedSinitKeepsTimer : Obligations.RepeatedSinitKeepsTimer := by
  intro s s₁ s₂ g g' pin mn mx init mn' mx' init' h₁ noError err h₂
  obtain ⟨t, ch, p, n, hp, ha, rfl⟩ := sinit_completes h₁ noError err
  have platform := constructGenerator_platform g pin mn mx init t ch p n s
  rcases sinit_cases h₂ with ⟨e, rfl, -⟩ | ⟨t', ch', p', n', -, hp', ha', rfl⟩
  · exact ⟨[], by simp, keepsPhase_nil⟩
  · rw [platform, hp] at hp'
    cases hp'
    rw [cfg_congr platform, ha] at ha'
    cases ha'
    exact keepsPhase_constructGenerator (configured_constructGenerator ..) g' pin mn' mx' init' ch

/-- Settles O49: the records change as a pulse write of the slot changes them, or not at all. -/
theorem generatorCommandFrame : Obligations.GeneratorCommandFrame := by
  intro i g s s' pulse h t
  obtain ⟨-, evs, trace, -⟩ := exec_gainsSections h
  exact ⟨(exec_changesPulseOnly pulse h).eq, ⟨evs, trace⟩, fun query => squery_records (query ▸ h),
    fun fits valid => completes_status (completes_of_valid pulse fits valid h)⟩

/-- Settles O50: each effect of an SINIT changes its slot or its pin's timer, and an error STATUS alone. -/
theorem sinitFrame : Obligations.SinitFrame := by
  intro s s' g pin mn mx init h
  obtain ⟨-, evs, trace, -⟩ := exec_gainsSections h
  rcases sinit_cases h with ⟨e, rfl, -⟩ | ⟨t, ch, p, n, -, hp, -, rfl⟩
  · exact ⟨fun _ => rfl, ⟨evs, trace⟩, fun t ch _ => (changesSlotOnly_raiseError g t e s).eq⟩
  · refine ⟨fun changed => absurd (constructGenerator_status ..) changed, ⟨evs, trace⟩, fun t' ch' hp' => ?_⟩
    rw [hp] at hp'
    cases hp'
    exact (changesSlotOnly_constructGenerator ..).eq

end
section
/-! The family of 60_exceptions.md: every step answers, and an error has no effect but its record in STATUS. -/

namespace Sys2Proof.Machine

/-! ## The record of an error (R39, R231, R232) -/

theorem errNumber_range (e : ErrCode) : 1 ≤ (errNumber e).toNat ∧ (errNumber e).toNat ≤ 7 := by
  cases e <;> decide

/-- An error that changes STATUS found ERR = 0, and STATUS becomes its code with ERR = 1. -/
theorem recordError_of_changed {e : ErrCode} {st : Byte} (changed : recordError e st ≠ st) :
    statusErr st = false ∧ recordError e st = errNumber e ++ (1 : BitVec 4) := by
  have noError : statusErr st = false := Bool.eq_false_iff.mpr fun err => changed (recordError_of_err err e)
  exact ⟨noError, if_neg (Bool.eq_false_iff.mp noError)⟩

/-! ## The steps that change STATUS (R231, R233, R239) -/

/-- A command that changes STATUS does nothing but raise an error. -/
theorem exec_raises_of_changed {i : Instr} {s s' : State} (h : exec i s = .next s') (changed : s'.status ≠ s.status) :
    ∃ e, s' = raiseError e s := by
  rcases exec_cases h with raised | ⟨-, completes⟩
  · exact raised
  · exact absurd (completes_status completes) changed

/-- A step that changes STATUS consumes the words of a complete command and raises an error. -/
theorem step_raises_of_changed {s s' : State} (ok : CbufOk s) (h : step s = .next s')
    (changed : s'.status ≠ s.status) :
    ∃ e, s' = raiseError e (consume (s.cbuf.length + 1) (s.port.drop 1) s) := by
  rcases step_cases h with ⟨-, rfl⟩ | ⟨w, rest, -, -, rfl⟩ | ⟨w, rest, e, port, bad, rfl⟩ |
    ⟨w, rest, i, r, port, decoded, executed⟩
  · exact absurd rfl changed
  · exact absurd rfl changed
  · have length := lenOf_of_complete ok (w := w) (by rcases bad with ⟨bad, -⟩ | ⟨bad, -⟩ <;> simp [bad])
    exact ⟨e, by rw [port, length]; rfl⟩
  · have length := lenOf_of_complete ok (w := w) (by simp [decoded])
    obtain ⟨e, raised⟩ := exec_raises_of_changed executed changed
    exact ⟨e, by rw [raised, port, length]; rfl⟩

/-! ## The step of an empty port (R37, R262) -/

theorem step_waiting {s : State} (empty : s.port = []) : step s = .next s := by
  unfold step fetch
  simp only [empty]

end Sys2Proof.Machine

open Sys2Proof.Machine

/-- Settles O10: such a step is one error raised with the command's words consumed, and the error was recorded. -/
theorem errorHasNoOtherEffect : Obligations.ErrorHasNoOtherEffect := by
  intro s s' ok h changed
  obtain ⟨e, rfl⟩ := step_raises_of_changed ok h changed
  obtain ⟨noError, recorded⟩ := recordError_of_changed changed
  obtain ⟨low, high⟩ := errNumber_range e
  exact ⟨noError, ⟨errNumber e, low, high, recorded⟩, rfl⟩

/-- Settles O8: whatever the word taken makes of the words received, the step has a next state, and an empty port makes
nothing of them. -/
theorem everyStepAnswers : Obligations.EveryStepAnswers := ⟨step_answers, fun _ => step_waiting⟩

end
section
/-! The family of 70_reset_and_hazards.md: what a reset of the block sets, and how many events a command adds to the
trace. -/

namespace Sys2Proof.Machine

/-! ## The records after a reset (R260) -/

@[simp] theorem timer_blockReset (s : State) (t : UnitNo) : (blockReset s).timer t = timerReset := by
  simp [State.timer, blockReset]

@[simp] theorem gen_blockReset (s : State) (g : UnitNo) : (blockReset s).gen g = genReset := by
  simp [State.gen, blockReset]

/-! ## The lengths of event sequences (R281) -/

/-- CTRL_C is written on a 16-bit timer only (R138). -/
theorem length_commitEvents (l : Layout) (c : TimerCfg) (t : UnitNo) (sh : Shadow) :
    (commitEvents l c t sh).length = if c.is16 then 3 else 2 := by
  unfold commitEvents
  cases c.is16 <;> rfl

/-- Beside ICR and the commit, a mode-set clears and restores IE and resets the counter (R136, R144). -/
theorem length_modeSetTrace (l : Layout) (c : TimerCfg) (t : UnitNo) (icr : Option Half) (sh : Shadow) (ie : Bool) :
    (modeSetTrace l c t icr sh ie).length = icr.toList.length + if c.is16 then 6 else 5 := by
  simp only [modeSetTrace, modeEvents, List.length_append, List.length_map, List.length_singleton,
    length_commitEvents]
  split <;> omega

/-- The number of compare registers a write to channel `ch` reaches (R160). -/
def channelCount (c : TimerCfg) (ch : Channel) : Nat := if chanPresent c ch then 1 else 0

theorem length_channelEvents (c : TimerCfg) (t : UnitNo) (mask : BitVec 3) (v : Half) (ch : Channel) :
    (channelEvents c t mask v ch).length = if maskHas mask ch then channelCount c ch else 0 := by
  unfold channelEvents selected channelCount
  cases maskHas mask ch <;> cases chanPresent c ch <;> rfl

theorem length_compareEvents (c : TimerCfg) (t : UnitNo) (mask : BitVec 3) (v : Half) :
    (compareEvents c t mask v).length =
      (if mask.getLsbD 0 then channelCount c .A else 0) + (if mask.getLsbD 1 then channelCount c .B else 0) +
        (if mask.getLsbD 2 then channelCount c .C else 0) := by
  simp only [compareEvents_eq_channelEvents, List.length_append, length_channelEvents]
  rfl

/-- A pulse write requests its slot's channel alone (R200). -/
theorem length_compareEvents_maskOf (c : TimerCfg) (t : UnitNo) (ch : Channel) (v : Half) :
    (compareEvents c t (maskOf ch) v).length = channelCount c ch := by
  rw [compareEvents_maskOf, channelCount]
  split <;> rfl

/-- Beside the compare registers and the commit, a compare write clears and restores IE (R136, R157). -/
theorem length_compareTrace (l : Layout) (c : TimerCfg) (t : UnitNo) (mask : BitVec 3) (v : Half) (sh : Shadow)
    (ie : Bool) :
    (compareTrace l c t mask v sh ie).length = (if c.is16 then 5 else 4) + (compareEvents c t mask v).length := by
  simp only [compareTrace, List.length_append, List.length_singleton, length_commitEvents]
  split <;> omega

/-! ## The events an effect adds (R281) -/

theorem trace_length_modeNormal (t : UnitNo) (s : State) :
    (modeNormal t s).trace.length = s.trace.length + if (s.cfg t).is16 then 6 else 5 := by
  rw [modeNormal_eq, trace_modeSet, List.length_append, length_modeSetTrace, Option.toList_none, List.length_nil,
    Nat.zero_add]

/-- ICR is the seventh event, on a 16-bit timer only (R149). -/
theorem trace_length_modeFast (t : UnitNo) (top : Half) (s : State) :
    (modeFast t top s).trace.length = s.trace.length + if (s.cfg t).is16 then 7 else 5 := by
  rw [modeFast_eq, trace_modeSet, List.length_append, length_modeSetTrace]
  cases (s.cfg t).is16 <;> rfl

theorem trace_length_compareWrite (t : UnitNo) (mask : BitVec 3) (inv : Bool) (v : Half) (s : State) :
    (compareWrite t mask inv v s).trace.length =
      s.trace.length + (if (s.cfg t).is16 then 5 else 4) + (compareEvents (s.cfg t) t mask v).length := by
  rw [trace_compareWrite, List.length_append, length_compareTrace, Nat.add_assoc]

theorem trace_length_pulseWrite (g : UnitNo) (x : Int) (s : State) :
    (pulseWrite g x s).trace.length =
      s.trace.length + (if (s.cfg (s.gen g).timer).is16 then 5 else 4) +
        channelCount (s.cfg (s.gen g).timer) (s.gen g).ch := by
  rw [trace_pulseWrite, List.length_append, pulseTrace, length_compareTrace, length_compareEvents_maskOf,
    Nat.add_assoc]

theorem exec_tmoden_next {t : UnitNo} {s : State} (ht : t.val < s.platform.numTimers) :
    exec (.tmoden t) s = .next (modeNormal t s) :=
  (exec_tmoden ..).trans (withTimer_next _ ht)

end Sys2Proof.Machine

open Sys2Proof.Machine

/-- Settles O30: each command's checks pass, and its effect's events are counted register by register. -/
theorem eventCounts : Obligations.EventCounts := by
  intro s wide count
  refine ⟨fun t ht => ⟨?tmoden, fun top => ?tmodef, fun mask inv v => ?tsetcmp⟩, fun g pw hg valid => ?ssetpw⟩
  case tmoden => exact ⟨_, exec_tmoden_next ht, trace_length_modeNormal t s⟩
  case tmodef => exact ⟨_, exec_tmodef_next ht top, trace_length_modeFast t top s⟩
  case tsetcmp =>
    refine ⟨_, exec_tsetcmp_next ht mask inv v, ?_⟩
    rw [trace_length_compareWrite, length_compareEvents, ← Nat.add_assoc, ← Nat.add_assoc]
    rfl
  case ssetpw => exact ⟨_, exec_ssetpw_next hg valid pw, trace_length_pulseWrite g pw.toNat s⟩

/-- Settles O14: a reset sets or keeps each field of the block, and puts the reset record in every timer and slot. -/
theorem resetSetsBlockState : Obligations.ResetSetsBlockState := by
  intro s
  refine ⟨rfl, rfl, rfl, rfl, fun t => ?_, fun g => ?_, rfl, rfl, rfl⟩
  · rw [timer_blockReset]
    exact ⟨rfl, rfl, rfl, rfl, rfl⟩
  · rw [gen_blockReset]
    rfl

end
